-- ==== Sys2Proof/Word.lean ====
section
/-! DEFINITION. The words of DEM-CORE: widths of registers, window entries and bytes (spec 10_state R20, R46). -/

namespace Sys2Proof

/-- A register-bus word: 32 bits (R20). `w.toInt` is the spec's `S(w)`, `w.toNat` its `U(w)` (R12). -/
abbrev Word := BitVec 32

/-- A 16-bit quantity: a raw sample code, a window entry (R45). -/
abbrev Half := BitVec 16

/-- Eight bits. -/
abbrev Byte := BitVec 8

/-- A word address of the register bus, `0x00` to `0x5F` (R20, R44): the bus has no other address. -/
abbrev BusAddr := Fin 0x60

end Sys2Proof
end

