-- ==== Sys2Proof/Syntax.lean ====
section
/-! DEFINITION. The 18 operations of DEM-CORE as syntax: one constructor per row of the opcode map (30_encoding R83). -/

namespace Sys2Proof

/-- An operation. Only formats N and T carry `arg`, an unsigned 8-bit number (R80, R82). -/
inductive Instr where
  | nop
  | toq16
  | mul
  | mulu
  | div
  | divu
  /-- format N: iteration count, 0 to 255 -/
  | sqrt (n : BitVec 8)
  | push
  | pop
  | ftstep
  | acc
  | finp
  | finrms
  | fine
  | bill
  | finpf
  /-- format T: target ROM index, 0 to 9 -/
  | bnb (t : BitVec 8)
  /-- format T: target ROM index, 0 to 9 -/
  | jmp (t : BitVec 8)
  deriving DecidableEq, Repr

end Sys2Proof
end

