-- ==== Sys2Proof/WellFormed.lean ====
section
/-! DEFINITION. Which instruction terms an operation word can stand for (30_encoding R80, R84). -/

namespace Sys2Proof

/-- A ROM index: 0 to 9 (10_state R22, 30_encoding R80). -/
def isRomIndex (t : BitVec 8) : Bool := t.toNat ≤ 9

/-- Format T targets are ROM indices (R84); every other operation is well formed at every `arg`. -/
def Instr.wf : Instr → Bool
  | .bnb t => isRomIndex t
  | .jmp t => isRomIndex t
  | .nop | .toq16 | .mul | .mulu | .div | .divu | .sqrt _ | .push | .pop | .ftstep | .acc | .finp | .finrms
  | .fine | .bill | .finpf => true

end Sys2Proof
end

