-- ==== Sys2Proof/Decode.lean ====
section
/-! DEFINITION. The operation word: decoder and encoder, from the opcode map and the decoding rule
(30_encoding R80, R83, R84, R90). -/

namespace Sys2Proof

/-- The three formats (R80): they differ only in the use of bits 15 to 8. -/
inductive Format where
  | z
  | n
  | t
  deriving DecidableEq, Repr

/-- Why a word is unexecutable (R84). -/
inductive Reject where
  /-- `w[31:16] ≠ 0` -/
  | zeroFieldNonzero
  /-- `w[7:0]` is not in the opcode map -/
  | reservedOpcode
  /-- format Z with `w[15:8] ≠ 0` -/
  | argNotZero
  /-- format T with `w[15:8] > 9` -/
  | targetOutOfRange
  deriving DecidableEq, Repr

/-- One row of the opcode map (R83). -/
structure OpcodeRow where
  opcode : BitVec 8
  format : Format
  build : BitVec 8 → Instr

/-- The opcode map of R83. -/
def opcodeTable : List OpcodeRow :=
  [ ⟨0x00, .z, fun _ => .nop⟩,
    ⟨0x01, .z, fun _ => .toq16⟩,
    ⟨0x02, .z, fun _ => .mul⟩,
    ⟨0x03, .z, fun _ => .mulu⟩,
    ⟨0x04, .z, fun _ => .div⟩,
    ⟨0x05, .z, fun _ => .divu⟩,
    ⟨0x06, .n, .sqrt⟩,
    ⟨0x10, .z, fun _ => .push⟩,
    ⟨0x11, .z, fun _ => .pop⟩,
    ⟨0x20, .z, fun _ => .ftstep⟩,
    ⟨0x30, .z, fun _ => .acc⟩,
    ⟨0x31, .z, fun _ => .finp⟩,
    ⟨0x32, .z, fun _ => .finrms⟩,
    ⟨0x40, .z, fun _ => .fine⟩,
    ⟨0x50, .z, fun _ => .bill⟩,
    ⟨0x60, .z, fun _ => .finpf⟩,
    ⟨0x70, .t, .bnb⟩,
    ⟨0x71, .t, .jmp⟩ ]

/-- `w[7:0]` (R80). -/
def opcodeField (w : Word) : BitVec 8 := w.extractLsb' 0 8

/-- `w[15:8]` (R80, R82). -/
def argField (w : Word) : BitVec 8 := w.extractLsb' 8 8

/-- `w[31:16]` (R80). -/
def zeroField (w : Word) : BitVec 16 := w.extractLsb' 16 16

/-- The format's test on `arg` and the operation it gives (R84). -/
def OpcodeRow.decodeArg (row : OpcodeRow) (arg : BitVec 8) : Except Reject Instr :=
  match row.format with
  | .z => if arg = 0 then .ok (row.build arg) else .error .argNotZero
  | .n => .ok (row.build arg)
  | .t => if isRomIndex arg then .ok (row.build arg) else .error .targetOutOfRange

/-- The decoding rule R84, total on words. -/
def decode (w : Word) : Except Reject Instr :=
  if zeroField w ≠ 0 then .error .zeroFieldNonzero
  else match opcodeTable.find? (fun row => row.opcode == opcodeField w) with
    | none => .error .reservedOpcode
    | some row => row.decodeArg (argField w)

/-- The word that the low `nbits` bits of `w` make, every other bit 0. -/
def tableWord (nbits w : Nat) : Word := BitVec.ofNat 32 (w % 2 ^ min nbits 32)

/-- What the decoder reads from a row's word, numbered as spec/opcode_table.json numbers it: an operation is ONE
32-bit word (R80), bit 0 its least significant bit. -/
def decodeTableWord (nbits w : Nat) : Option Instr :=
  match decode (tableWord nbits w) with
  | .ok i => some i
  | .error _ => none

/-! The encoder, from the same map. -/

/-- The opcode of an operation (R83); `FAULT.OP` records it (R213). -/
def Instr.opcode : Instr → BitVec 8
  | .nop => 0x00
  | .toq16 => 0x01
  | .mul => 0x02
  | .mulu => 0x03
  | .div => 0x04
  | .divu => 0x05
  | .sqrt _ => 0x06
  | .push => 0x10
  | .pop => 0x11
  | .ftstep => 0x20
  | .acc => 0x30
  | .finp => 0x31
  | .finrms => 0x32
  | .fine => 0x40
  | .bill => 0x50
  | .finpf => 0x60
  | .bnb _ => 0x70
  | .jmp _ => 0x71

/-- The `arg` field of an operation: zero in format Z (R80). -/
def Instr.arg : Instr → BitVec 8
  | .sqrt n => n
  | .bnb t => t
  | .jmp t => t
  | .nop | .toq16 | .mul | .mulu | .div | .divu | .push | .pop | .ftstep | .acc | .finp | .finrms | .fine | .bill
  | .finpf => 0

/-- Is the operation of format T, executable only from the ROM (R81, R88)? -/
def Instr.romOnly : Instr → Bool
  | .bnb _ | .jmp _ => true
  | .nop | .toq16 | .mul | .mulu | .div | .divu | .sqrt _ | .push | .pop | .ftstep | .acc | .finp | .finrms | .fine
  | .bill | .finpf => false

/-- `opcode | (arg << 8)` (R90). -/
def encode (i : Instr) : Word := i.opcode.setWidth 32 ||| (i.arg.setWidth 32 <<< 8)

end Sys2Proof
end

