-- ==== Sys2Proof/Config.lean ====
section
/-! DEFINITION. What one DEM-CORE instance fixes: the OPEN parameters of 00_scope R10, taken as an argument.
The parameters the spec gives a value are constants of Machine/Constants.lean. -/

namespace Sys2Proof

/-- `COST_CARRY_RESIDUE` (R10, R182): what a cost carry leaves in its accumulator. -/
inductive CarryResidue where
  /-- the accumulator is cleared -/
  | zero
  /-- the threshold is subtracted -/
  | subtract
  deriving DecidableEq, Repr

/-- The OPEN parameters of R10. The machine carries them unchanged (log 3), so a statement over every state is one
over every instance. -/
structure Params where
  /-- `ADC_VOLTAGE_RANGE_Q16`, signed Q16 volts -/
  adcVoltageRange : Word
  /-- `ADC_MAX` less one: `ADC_MAX` is 1 to 65535, and 0 cannot be written (DESIGN CHOICE, log 14; safe) -/
  adcMaxLessOne : Fin 65535
  /-- `PERIOD_RESET`, nanoseconds -/
  periodReset : Word
  /-- `FT_RESTART` -/
  ftRestart : Bool
  /-- `COST_CARRY_RESIDUE` -/
  costCarryResidue : CarryResidue
  deriving DecidableEq, Repr

/-- `ADC_MAX`, 1 to 65535 (R10). -/
def Params.adcMax (p : Params) : Nat := p.adcMaxLessOne.val + 1

/-- The test values and defaults of R10; they have no other standing (DESIGN CHOICE to start from them, log 3; unsafe
for a statement that rests on them). -/
def Params.testValues : Params where
  adcVoltageRange := 0x000A0000#32
  adcMaxLessOne := 32766
  periodReset := 1250000#32
  ftRestart := true
  costCarryResidue := .zero

end Sys2Proof
end

