-- ==== Sys2Proof/Machine/State.lean ====
section
/-! DEFINITION. All the state the spec gives DEM-CORE (10_state.md), as plain data, grouped by unit, and its reset
(70_reset R240 to R242). Registers are read and written over the bus through Machine/Bus.lean. -/

namespace Sys2Proof.Machine

/-- The five general registers (R21). -/
structure GeneralRegs where
  opa : Word
  opb : Word
  res : Word
  rV : Word
  rI : Word
  deriving DecidableEq, Repr

/-- `STATUS` (R25), bits 0 to 4 in this order. -/
structure StatusReg where
  halted : Bool
  ovf : Bool
  tmodeBad : Bool
  cmdErr : Bool
  waiting : Bool
  deriving DecidableEq, Repr

/-- `CTRL` (R29). -/
structure CtrlReg where
  run : Bool
  testMode : Bool
  deriving DecidableEq, Repr

/-- The fatal conditions (60_exceptions R211). -/
inductive Cause where
  | divZero
  | zeroCount
  | zeroSeed
  | waitFail
  deriving DecidableEq, Repr

/-- `FAULT` (R30). Codes 5 to 255 of `CAUSE` are never written (R211); `none` is code 0. -/
structure FaultReg where
  cause : Option Cause
  op : BitVec 8
  pc : BitVec 4
  src : Bool
  deriving DecidableEq, Repr

/-- The input registers the collaborators write (R32, R33, R34). -/
structure InputRegs where
  tariffMode : BitVec 16
  adcV : Half
  adcI : Half
  wcHms : BitVec 24
  wcDays : BitVec 16
  deriving DecidableEq, Repr

/-- The five tariff rate registers (R35). -/
structure RateRegs where
  t1Peak : Word
  t1Shoulder : Word
  t1Offpeak : Word
  t2Flat : Word
  t3Flat : Word
  deriving DecidableEq, Repr

/-- SampleChannel's cursors and counting signal (R36). -/
structure ChannelRegs where
  pcur : BitVec 4
  ccur : BitVec 4
  avail : Word
  deriving DecidableEq, Repr

/-- `FT_CTL.STATE` (R38, 42_frequencytracker R130); value 3 is reserved and never held. -/
inductive TrackState where
  | unsynced
  | tracking
  | locked
  deriving DecidableEq, Repr

/-- FrequencyTracker's registers (R38) and the boundary flag (R26). -/
structure TrackerRegs where
  state : TrackState
  toggle : Bool
  prev : Word
  count : Word
  entry : Word
  exit : Word
  period : Word
  periodDone : Word
  boundary : Bool
  deriving DecidableEq, Repr

/-- CycleAggregator's registers (R39). -/
structure AggRegs where
  sumV2 : Word
  sumI2 : Word
  sumP : Word
  count : Word
  seedV : Word
  seedI : Word
  rmsCold : Bool
  nDone : Word
  deriving DecidableEq, Repr

/-- EnergyIntegrator's registers (R40). -/
structure EnergyRegs where
  eCycle : Word
  eAcc : Word
  deriving DecidableEq, Repr

/-- TariffBillingEngine's registers (R41). -/
structure BillRegs where
  mcCycle : Word
  mcAcc : Word
  cents : Word
  deriving DecidableEq, Repr

/-- The seven running totals (R42). -/
structure TotalRegs where
  power : Word
  energy : Word
  cost : Word
  freq : Word
  vrms : Word
  irms : Word
  pf : Word
  deriving DecidableEq, Repr

/-- The sample window's bytes (R45), keyed by byte address: byte `b` of bus word `a` is `4 * a + b`, `b = 0` being
bits 7 to 0 (R60). Canonical: addresses strictly rising, no entry equal to what an unlisted address reads as
(`Memory.wf`). -/
abbrev Memory := List Host.Cell

/-- One `set_period(ns, restart)` event (60_exceptions R226). -/
structure PeriodEvent where
  ns : Word
  restart : Bool
  deriving DecidableEq, Repr

/-- The data one bus read returned. -/
structure BusRead where
  addr : BusAddr
  data : Word
  deriving DecidableEq, Repr

/-- What the spec leaves unspecified after reset, supplied by the environment (70_reset R242): the window entries
in address order from `0x40` (entries not listed are 0) and the collaborators' input registers. -/
structure ResetInputs where
  windows : List Half
  tariffMode : BitVec 16
  wcHms : BitVec 24
  wcDays : BitVec 16
  deriving DecidableEq, Repr

/-- A move of one agent, one atomic step of the total order (20_memory R70, 60_exceptions R230). -/
inductive Event where
  /-- the consumer's next move: the sequencer's, or a suspended POP's second half (R201, R123) -/
  | consumer
  /-- the producer's tick with raw codes `v` and `i` (R225) -/
  | tick (v i : Half)
  /-- one bus write by the host or a collaborator (R67, R227) -/
  | busWrite (addr : BusAddr) (data : Word)
  /-- one bus read by the host or a reader (R43) -/
  | busRead (addr : BusAddr)
  /-- the `wait_fail` input asserted (R228) -/
  | waitFail
  /-- reset (R240), with what the spec leaves unspecified after it -/
  | reset (inputs : ResetInputs)
  deriving DecidableEq, Repr

/-- The machine. The fields down to `periodEvents` are the spec's; the last three are the model's own. -/
structure State where
  regs : GeneralRegs
  /-- `SEQ_PC` (R22), the program counter: an index of the operation ROM -/
  seqPc : BitVec 4
  status : StatusReg
  ctrl : CtrlReg
  fault : FaultReg
  inputs : InputRegs
  rates : RateRegs
  channel : ChannelRegs
  /-- `VBUF`, `IBUF` (R45, R46) -/
  mem : Memory
  tracker : TrackerRegs
  agg : AggRegs
  energy : EnergyRegs
  bill : BillRegs
  totals : TotalRegs
  /-- A PUSH since the suspended POP blocked has made `AVAIL > 0` (41_samplechannel R123, 20_memory R71; log 8). -/
  popLifted : Bool
  /-- The `set_period` events emitted, oldest first (R47 (c), R226; log 13). -/
  periodEvents : List PeriodEvent
  /-- What the bus's reads returned, oldest first: the read port's output (log 13). -/
  busReads : List BusRead
  /-- The environment's coming moves, the next first; when empty the consumer moves (R71; log 1). -/
  schedule : List Event
  /-- The instance's open parameters (00_scope R10; log 3): no step changes them. -/
  params : Params
  deriving DecidableEq, Repr

/-- Why the model's machine stops. No operation's meaning ends here: DEM-CORE's own fatal conditions are taken as the
halt of R213, a next state. -/
inductive Fault where
  /-- Raised by the consumer's move when the sequencer finds no executable ROM word at `SEQ_PC`. The ROM's ten words
  are executable (R85) and `SEQ_PC` never passes 9 (R23), so no run reaches it; safe (log 12). -/
  | romFetch
  deriving DecidableEq, Repr

/-- Why the model gives an instruction no meaning. -/
inductive Refusal where
  /-- Raised by an arm of `exec` whose instruction has no meaning yet; safe. -/
  | notModelled (mnemonic : String)
  deriving DecidableEq, Repr

/-- Every register at the reset value of R49 and R241 for an instance with parameters `p`; the unspecified ones
(R242) at 0 and the window with nothing listed (DESIGN CHOICE, logs 4 and 5; unsafe). -/
def State.resetRegs (p : Params) : State where
  regs := { opa := 0, opb := 0, res := 0, rV := 0, rI := 0 }
  seqPc := 0
  status := { halted := false, ovf := false, tmodeBad := false, cmdErr := false, waiting := false }
  ctrl := { run := false, testMode := false }
  fault := { cause := none, op := 0, pc := 0, src := false }
  inputs := { tariffMode := 0, adcV := 0, adcI := 0, wcHms := 0, wcDays := 0 }
  rates := { t1Peak := 0, t1Shoulder := 0, t1Offpeak := 0, t2Flat := 0, t3Flat := 0 }
  channel := { pcur := 0, ccur := 0, avail := 0 }
  mem := []
  tracker :=
    { state := .unsynced, toggle := false, prev := 0, count := 0, entry := 0, exit := 0, period := p.periodReset,
      periodDone := 0, boundary := false }
  agg :=
    { sumV2 := 0, sumI2 := 0, sumP := 0, count := 0, seedV := 0x00010000, seedI := 0x00010000, rmsCold := true,
      nDone := 0 }
  energy := { eCycle := 0, eAcc := 0 }
  bill := { mcCycle := 0, mcAcc := 0, cents := 0 }
  totals := { power := 0, energy := 0, cost := 0, freq := 0, vrms := 0, irms := 0, pf := 0 }
  popLifted := false
  periodEvents := []
  busReads := []
  schedule := []
  params := p

/-- The machine right after reset, with the test values of R10 for its open parameters (log 3) and no move scheduled. -/
def State.reset : State := State.resetRegs Params.testValues

end Sys2Proof.Machine
end

