-- ==== Sys2Proof/Machine/Constants.lean ====
section
/-! DEFINITION. The parameters of 00_scope R10 that have a value, and the operation ROM of 47_scheduler R195. -/

namespace Sys2Proof.Machine

/-- `RATIO_V` (R10). -/
def ratioV : Int := 100

/-- `RATIO_I` (R10). -/
def ratioI : Int := 1

/-- `SQRT_COLD_ITER` (R10). -/
def sqrtColdIter : Nat := 15

/-- `SQRT_WARM_ITER` (R10). -/
def sqrtWarmIter : Nat := 1

/-- 10.0 in Q16 (43_cycleaggregator, `TEN`). -/
def ten : Word := 0x000A0000

/-- `ENERGY_CARRY_Q16`: 3600.0 Ws (R10). -/
def energyCarry : Word := 0x0E100000

/-- `ENERGY_STEP_Q16`: 0.001 kWh truncated to Q16 (R10, R170). -/
def energyStep : Word := 65

/-- `TEST_FACTOR` (R10). -/
def testFactor : Int := 3600

/-- 3600.0 in Q16 (45_tariffbilling, `WS_PER_WH`). -/
def wsPerWh : Word := 0x0E100000

/-- `MC_CARRY_Q16`: 1000.0 (R10). -/
def mcCarry : Word := 0x03E80000

/-- `CENTS_CARRY` (R10). -/
def centsCarry : Nat := 100

/-- `DOLLAR_Q16` (R10). -/
def dollar : Word := 0x00010000

/-- `FLL_DIV_SHIFT` (R10). -/
def fllDivShift : Nat := 4

/-- `FLL_CORR_SHIFT` (R10). -/
def fllCorrShift : Nat := 16

/-- `FRAC_SCALE` (R10). -/
def fracScale : Int := 1000

/-- Nanoseconds in a second (R138, R166). -/
def nsPerSecond : Nat := 1000000000

/-- The operation ROM (R195): index `SEQ_PC`, ten words. -/
def operationRom : List Word :=
  [ 0x00000011,   -- POP
    0x00000020,   -- FTSTEP
    0x00000030,   -- ACC
    0x00000070,   -- BNB 0
    0x00000031,   -- FINP
    0x00000032,   -- FINRMS
    0x00000040,   -- FINE
    0x00000050,   -- BILL
    0x00000060,   -- FINPF
    0x00000071 ]  -- JMP 0

/-- The word the sequencer fetches at an index (R201). -/
def romWord (pc : BitVec 4) : Option Word := operationRom[pc.toNat]?

/-- The first ROM index that holds a word. -/
def romIndexOf (w : Word) : Option (BitVec 4) := (operationRom.findIdx? (· == w)).map (BitVec.ofNat 4)

end Sys2Proof.Machine
end

