-- ==== Sys2Proof/Machine/Flags.lean ====
section
/-! DEFINITION. How an exact result enters a 32-bit register: `wrap32`, `fitsS`, `fitsU` and the sticky `OVF` flag
(00_scope R13, R14, 10_state R27). There are no other arithmetic flags (R28). -/

namespace Sys2Proof.Machine

/-- `wrap32(z)` (R13). -/
def wrap32 (z : Int) : Word := BitVec.ofInt 32 z

/-- `fitsS(z)` (R13). -/
def fitsS (z : Int) : Bool := -2 ^ 31 ≤ z && z ≤ 2 ^ 31 - 1

/-- `fitsU(z)` (R13). -/
def fitsU (z : Int) : Bool := 0 ≤ z && z ≤ 2 ^ 32 - 1

/-- A 32-bit pattern and whether computing it calls `ovf()` (R15). -/
structure Flagged where
  val : Word
  ovf : Bool
  deriving DecidableEq, Repr

/-- `if not fitsS(z): ovf()`, then `wrap32(z)`. -/
def narrowS (z : Int) : Flagged := ⟨wrap32 z, !fitsS z⟩

/-- `if not fitsU(z): ovf()`, then `wrap32(z)`. -/
def narrowU (z : Int) : Flagged := ⟨wrap32 z, !fitsU z⟩

/-- `ovf()` where `o` holds: sets `STATUS.OVF` and has no other effect (R197 (5)). -/
def State.noteOvf (s : State) (o : Bool) : State := { s with status.ovf := s.status.ovf || o }

/-- A counter register incremented with wrap and flag (R224). -/
def increment (w : Word) : Flagged := narrowU (w.toNat + 1)

end Sys2Proof.Machine
end

