-- ==== Sys2Proof/Machine/Operands.lean ====
section
/-! DEFINITION. Operand forms. Operands are implicit registers (30_encoding R82); what a form adds is how bits are
read: `sext_16` of a low half, the 8-bit `arg`, a bit slice (00_scope R12, R13). -/

namespace Sys2Proof.Machine

/-- `sext_16` of `r[15:0]` (R13, R102). -/
def lowHalfSigned (w : Word) : Int := (w.extractLsb' 0 16).toInt

/-- `sext_16` of a window entry or raw code (R46, R122). -/
def rawCode (h : Half) : Int := h.toInt

/-- The iteration count of format N: `zext_8(arg)` (R82). -/
def iterations (arg : BitVec 8) : Nat := arg.toNat

/-- The target of format T as a program counter (R199, R200); a well-formed target is 0 to 9 (log 12). -/
def romTarget (arg : BitVec 8) : BitVec 4 := arg.setWidth 4

/-- The hours field `WC_HMS[23:16]` (R34, R176). -/
def hoursField (hms : BitVec 24) : Nat := (hms.extractLsb' 16 8).toNat

/-- The 16-bit halves in which a serial protocol returns a total (20_memory R60). -/
def lowHalf (w : Word) : Half := w.extractLsb' 0 16

/-- See `lowHalf`. -/
def highHalf (w : Word) : Half := w.extractLsb' 16 16

/-- Byte `b` of a register where a bus bridge presents it as four bytes: byte 0 is bits 7 to 0 (R60). -/
def bridgeByte (w : Word) (b : Fin 4) : Byte := w.extractLsb' (8 * b.val) 8

end Sys2Proof.Machine
end

