-- ==== Sys2Proof/Machine/Ops.lean ====
section
/-! DEFINITION. The operations the meanings share: the sample window, the fatal halt and reset, and the common
envelope of every operation (47_scheduler R197, 60_exceptions R213, 70_reset R240). -/

namespace Sys2Proof.Machine

/-! ## The sample window -/

/-- What a byte nothing has written reads as: the entry's reset value is unspecified (R46, R242); 0 here
(DESIGN CHOICE, log 5; unsafe). -/
def unwrittenByte : Byte := 0

/-- One byte of the window. -/
def Memory.readByte : Memory → Nat → Byte
  | [], _ => unwrittenByte
  | (k, b) :: m, a => if k = a then b else Memory.readByte m a

/-- A cell in front of a memory of higher addresses, left out where it would equal an unlisted byte. -/
def Memory.consCell (a : Nat) (b : Byte) (m : Memory) : Memory := if b = unwrittenByte then m else (a, b) :: m

/-- One byte stored, in the canonical form. -/
def Memory.writeByte : Memory → Nat → Byte → Memory
  | [], a, b => Memory.consCell a b []
  | (k, c) :: m, a, b =>
    if a < k then Memory.consCell a b ((k, c) :: m)
    else if a = k then Memory.consCell a b m
    else (k, c) :: Memory.writeByte m a b

/-- Every listed address is at least `lo`, addresses strictly rise, and no entry equals an unlisted byte. -/
def Memory.wfFrom : Nat → Memory → Bool
  | _, [] => true
  | lo, (k, b) :: m => decide (lo ≤ k) && decide (b ≠ unwrittenByte) && Memory.wfFrom (k + 1) m

/-- The canonical form: equal memories are equal data. -/
def Memory.wf (m : Memory) : Bool := Memory.wfFrom 0 m

/-- The byte address of byte `b` of a bus word (R60). -/
def byteAddr (word b : Nat) : Nat := 4 * word + b

/-- `MemRead(addr, 2)` (R14, R62): the 16-bit entry at a bus word address. -/
def Memory.readHalf (m : Memory) (word : Nat) : Half :=
  m.readByte (byteAddr word 1) ++ m.readByte (byteAddr word 0)

/-- `MemWrite(addr, 2, h)` (R14, R62). -/
def Memory.writeHalf (m : Memory) (word : Nat) (h : Half) : Memory :=
  (m.writeByte (byteAddr word 0) (h.extractLsb' 0 8)).writeByte (byteAddr word 1) (h.extractLsb' 8 8)

/-- The bus word address of `VBUF[k]` (R46). -/
def vbufWord (k : BitVec 4) : Nat := 0x40 + k.toNat

/-- The bus word address of `IBUF[k]` (R46). -/
def ibufWord (k : BitVec 4) : Nat := 0x50 + k.toNat

/-- Is a byte address one of a window entry's two bytes? -/
def isWindowByte (a : Nat) : Bool := decide (0x40 * 4 ≤ a) && decide (a < 0x60 * 4) && decide (a % 4 < 2)

/-- `VBUF[k]`. -/
def State.vbuf (s : State) (k : BitVec 4) : Half := s.mem.readHalf (vbufWord k)

/-- `IBUF[k]`. -/
def State.ibuf (s : State) (k : BitVec 4) : Half := s.mem.readHalf (ibufWord k)

/-! ## How an operation ends -/

/-- The end of an operation's pseudocode: it completes, it blocks (POP alone), or a line raises `Fatal` with the
writes listed before that line done (R197 (4)). -/
inductive Effect where
  | done (s : State)
  | blocked (s : State)
  | fatal (c : Cause) (s : State)
  deriving DecidableEq, Repr

/-- The end of a Q16 primitive that may raise `Fatal`, with whether `ovf()` was called by then (R15, R212). -/
inductive Calc where
  | value (r : Flagged)
  | fatal (c : Cause) (ovf : Bool)
  deriving DecidableEq, Repr

/-- A later line uses a primitive's value and inherits its flag and its fatal condition (R15). -/
def Calc.andThen (c : Calc) (s : State) (k : Word → State → Effect) : Effect :=
  match c with
  | .value r => k r.val (s.noteOvf r.ovf)
  | .fatal cause o => .fatal cause (s.noteOvf o)

/-- `FAULT.SRC`: 1 if the operation was fetched by the sequencer. Operations come from the sequencer in RUN mode and
from `CMD` in DIRECT mode (R81, R230; log 10). -/
def State.fromSequencer (s : State) : Bool := s.ctrl.run

/-- Taking a fatal condition: the halt of R213. -/
def State.takeFatal (s : State) (op : BitVec 8) (c : Cause) : State :=
  { s with
    fault := { cause := some c, op := op, pc := s.seqPc, src := s.fromSequencer }
    status.halted := true }

/-- `SEQ_PC` after an operation other than BNB and JMP completes: one on in RUN mode, unmoved in DIRECT mode
(R23, R201). -/
def State.advance (s : State) : State :=
  if s.ctrl.run then { s with seqPc := s.seqPc + 1 } else s

/-- What an operation's end makes of the state (R197, R213, R201). -/
def Effect.finish (op : BitVec 8) : Effect → State
  | .done s => s.advance
  | .blocked s => s
  | .fatal c s => s.takeFatal op c

/-- The common envelope of R197: nothing executes while `STATUS.HALTED = 1` (log 11). -/
def operate (i : Instr) (body : State → Effect) (s : State) : Host.Outcome State Fault Refusal :=
  if s.status.halted then .next s else .next ((body s).finish i.opcode)

/-- `STATUS.CMD_ERR` set and nothing else (30_encoding R88). -/
def State.cmdRefused (s : State) : State := { s with status.cmdErr := true }

/-- The envelope of a format T operation: executable only from the ROM, that is in RUN mode (R81, R88); it sets
`SEQ_PC` itself. -/
def transfer (target : State → BitVec 4) (s : State) : Host.Outcome State Fault Refusal :=
  if s.status.halted then .next s
  else if s.ctrl.run then .next { s with seqPc := target s }
  else .next s.cmdRefused

/-! ## Reset: the only exit from the halt (R220) -/

/-- The unspecified window contents of R242, entry by entry from word address `word`. -/
def loadWindow : List Half → Nat → Memory → Memory
  | [], _, m => m
  | h :: hs, word, m => if word < 0x60 then loadWindow hs (word + 1) (m.writeHalf word h) else m

/-- Reset (R240): every register at its reset value, the unspecified ones as the environment supplies them (R242);
the output traces and the environment's schedule are no hardware state and stay (log 13). -/
def State.afterReset (s : State) (u : ResetInputs) : State :=
  { State.resetRegs s.params with
    inputs := { tariffMode := u.tariffMode, adcV := 0, adcI := 0, wcHms := u.wcHms, wcDays := u.wcDays }
    mem := loadWindow u.windows 0x40 []
    periodEvents := s.periodEvents
    busReads := s.busReads
    schedule := s.schedule }

end Sys2Proof.Machine
end

