-- ==== Sys2Proof/Machine/Bus.lean ====
section
/-! DEFINITION. The register bus (10_state R20, R49, 20_memory R67): address map, host access classes, what a bus read
returns and what a bus write to a register other than CMD does. -/

namespace Sys2Proof.Machine

/-- The registers and window entries of the address map R49. -/
inductive BusReg where
  /-- `OPA` -/
  | opa
  /-- `OPB` -/
  | opb
  /-- `RES` -/
  | res
  /-- `R_V` -/
  | rV
  /-- `R_I` -/
  | rI
  /-- `CTRL` -/
  | ctrl
  /-- `STATUS` -/
  | status
  /-- `FAULT` -/
  | fault
  /-- `SEQ_PC` -/
  | seqPc
  /-- `CMD` -/
  | cmd
  /-- `TARIFF_MODE` -/
  | tariffMode
  /-- `ADC_V` -/
  | adcV
  /-- `ADC_I` -/
  | adcI
  /-- `WC_HMS` -/
  | wcHms
  /-- `WC_DAYS` -/
  | wcDays
  /-- `PCUR` -/
  | pcur
  /-- `CCUR` -/
  | ccur
  /-- `AVAIL` -/
  | avail
  /-- `FT_CTL` -/
  | ftCtl
  /-- `FT_PREV` -/
  | ftPrev
  /-- `FT_COUNT` -/
  | ftCount
  /-- `FT_ENTRY` -/
  | ftEntry
  /-- `FT_EXIT` -/
  | ftExit
  /-- `FT_PERIOD` -/
  | ftPeriod
  /-- `PERIOD_DONE` -/
  | periodDone
  /-- `BOUNDARY` -/
  | boundary
  /-- `SUM_V2` -/
  | sumV2
  /-- `SUM_I2` -/
  | sumI2
  /-- `SUM_P` -/
  | sumP
  /-- `COUNT` -/
  | count
  /-- `SEED_V` -/
  | seedV
  /-- `SEED_I` -/
  | seedI
  /-- `AGG_CTL` -/
  | aggCtl
  /-- `N_DONE` -/
  | nDone
  /-- `E_CYCLE` -/
  | eCycle
  /-- `E_ACC` -/
  | eAcc
  /-- `MC_CYCLE` -/
  | mcCycle
  /-- `MC_ACC` -/
  | mcAcc
  /-- `CENTS` -/
  | cents
  /-- `RATE_T1_PEAK` -/
  | rateT1Peak
  /-- `RATE_T1_SHOULDER` -/
  | rateT1Shoulder
  /-- `RATE_T1_OFFPEAK` -/
  | rateT1Offpeak
  /-- `RATE_T2_FLAT` -/
  | rateT2Flat
  /-- `RATE_T3_FLAT` -/
  | rateT3Flat
  /-- `TOT_POWER` -/
  | totPower
  /-- `TOT_ENERGY` -/
  | totEnergy
  /-- `TOT_COST` -/
  | totCost
  /-- `TOT_FREQ` -/
  | totFreq
  /-- `TOT_VRMS` -/
  | totVrms
  /-- `TOT_IRMS` -/
  | totIrms
  /-- `TOT_PF` -/
  | totPf
  /-- `VBUF[k]` -/
  | vbuf (k : BitVec 4)
  /-- `IBUF[k]` -/
  | ibuf (k : BitVec 4)
  deriving DecidableEq, Repr

/-- The named registers of R49 with their addresses, in its order. -/
def namedRegs : List (BusReg × Nat) :=
  [ (.opa, 0x00), (.opb, 0x01), (.res, 0x02), (.rV, 0x03), (.rI, 0x04), (.ctrl, 0x08),
    (.status, 0x09), (.fault, 0x0A), (.seqPc, 0x0B), (.cmd, 0x0C), (.tariffMode, 0x0D), (.adcV, 0x0E),
    (.adcI, 0x0F), (.wcHms, 0x10), (.wcDays, 0x11), (.pcur, 0x14), (.ccur, 0x15), (.avail, 0x16),
    (.ftCtl, 0x18), (.ftPrev, 0x19), (.ftCount, 0x1A), (.ftEntry, 0x1B), (.ftExit, 0x1C), (.ftPeriod, 0x1D),
    (.periodDone, 0x1E), (.boundary, 0x1F), (.sumV2, 0x20), (.sumI2, 0x21), (.sumP, 0x22), (.count, 0x23),
    (.seedV, 0x24), (.seedI, 0x25), (.aggCtl, 0x26), (.nDone, 0x27), (.eCycle, 0x28), (.eAcc, 0x29),
    (.mcCycle, 0x2A), (.mcAcc, 0x2B), (.cents, 0x2C), (.rateT1Peak, 0x2D), (.rateT1Shoulder, 0x2E), (.rateT1Offpeak, 0x2F),
    (.rateT2Flat, 0x30), (.rateT3Flat, 0x31), (.totPower, 0x38), (.totEnergy, 0x39), (.totCost, 0x3A), (.totFreq, 0x3B),
    (.totVrms, 0x3C), (.totIrms, 0x3D), (.totPf, 0x3E) ]

/-- The address decoder of R49: `none` is an unmapped address (R20). -/
def busDecode (a : BusAddr) : Option BusReg :=
  if 0x50 ≤ a.val then some (.ibuf (BitVec.ofNat 4 (a.val - 0x50)))
  else if 0x40 ≤ a.val then some (.vbuf (BitVec.ofNat 4 (a.val - 0x40)))
  else (namedRegs.find? (·.2 == a.val)).map (·.1)

/-- Host access classes (R20); `cmd` is special (R31). -/
inductive HostClass where
  /-- the host may write at any time while not halted -/
  | a
  /-- the host may write only in DIRECT mode, while not halted -/
  | d
  /-- the host never writes -/
  | n
  /-- a write executes an operation word -/
  | command
  deriving DecidableEq, Repr

/-- The host column of R49. -/
def BusReg.hostClass : BusReg → HostClass
  | .ctrl | .tariffMode | .adcV | .adcI | .wcHms | .wcDays => .a
  | .status | .fault => .n
  | .cmd => .command
  | .opa | .opb | .res | .rV | .rI | .seqPc | .pcur | .ccur | .avail | .ftCtl | .ftPrev | .ftCount | .ftEntry
  | .ftExit | .ftPeriod | .periodDone | .boundary | .sumV2 | .sumI2 | .sumP | .count | .seedV | .seedI | .aggCtl
  | .nDone | .eCycle | .eAcc | .mcCycle | .mcAcc | .cents | .rateT1Peak | .rateT1Shoulder | .rateT1Offpeak
  | .rateT2Flat | .rateT3Flat | .totPower | .totEnergy | .totCost | .totFreq | .totVrms | .totIrms | .totPf
  | .vbuf _ | .ibuf _ => .d

/-- A one-bit register as a bus word. -/
def bitWord (b : Bool) : Word := 0#31 ++ BitVec.ofBool b

/-- `STATUS` as a bus word (R25). -/
def StatusReg.toWord (r : StatusReg) : Word :=
  0#27 ++ BitVec.ofBool r.waiting ++ BitVec.ofBool r.cmdErr ++ BitVec.ofBool r.tmodeBad ++ BitVec.ofBool r.ovf ++
    BitVec.ofBool r.halted

/-- `CTRL` as a bus word (R29). -/
def CtrlReg.toWord (r : CtrlReg) : Word := 0#30 ++ BitVec.ofBool r.testMode ++ BitVec.ofBool r.run

/-- The cause codes of 60_exceptions R211. -/
def causeCode : Option Cause → BitVec 8
  | none => 0
  | some .divZero => 1
  | some .zeroCount => 2
  | some .zeroSeed => 3
  | some .waitFail => 4

/-- `FAULT` as a bus word (R30). -/
def FaultReg.toWord (r : FaultReg) : Word := 0#11 ++ BitVec.ofBool r.src ++ r.pc ++ r.op ++ causeCode r.cause

/-- `FT_CTL.STATE`'s value (R38). -/
def TrackState.code : TrackState → BitVec 2
  | .unsynced => 0
  | .tracking => 1
  | .locked => 2

/-- The state an `FT_CTL.STATE` value names; 3 is reserved (R38). -/
def trackStateOf (c : BitVec 2) : Option TrackState :=
  if c = 0 then some .unsynced else if c = 1 then some .tracking else if c = 2 then some .locked else none

/-- `FT_CTL` as a bus word (R38). -/
def ftCtlWord (t : TrackerRegs) : Word := 0#29 ++ BitVec.ofBool t.toggle ++ t.state.code

/-- What a bus read of a register returns (R20, R46); `CMD` reads as zero (R31). Reading has no side effect (R67). -/
def State.readReg (s : State) : BusReg → Word
  | .opa => s.regs.opa
  | .opb => s.regs.opb
  | .res => s.regs.res
  | .rV => s.regs.rV
  | .rI => s.regs.rI
  | .ctrl => s.ctrl.toWord
  | .status => s.status.toWord
  | .fault => s.fault.toWord
  | .seqPc => s.seqPc.setWidth 32
  | .cmd => 0
  | .tariffMode => s.inputs.tariffMode.setWidth 32
  | .adcV => s.inputs.adcV.setWidth 32
  | .adcI => s.inputs.adcI.setWidth 32
  | .wcHms => s.inputs.wcHms.setWidth 32
  | .wcDays => s.inputs.wcDays.setWidth 32
  | .pcur => s.channel.pcur.setWidth 32
  | .ccur => s.channel.ccur.setWidth 32
  | .avail => s.channel.avail
  | .ftCtl => ftCtlWord s.tracker
  | .ftPrev => s.tracker.prev
  | .ftCount => s.tracker.count
  | .ftEntry => s.tracker.entry
  | .ftExit => s.tracker.exit
  | .ftPeriod => s.tracker.period
  | .periodDone => s.tracker.periodDone
  | .boundary => bitWord s.tracker.boundary
  | .sumV2 => s.agg.sumV2
  | .sumI2 => s.agg.sumI2
  | .sumP => s.agg.sumP
  | .count => s.agg.count
  | .seedV => s.agg.seedV
  | .seedI => s.agg.seedI
  | .aggCtl => bitWord s.agg.rmsCold
  | .nDone => s.agg.nDone
  | .eCycle => s.energy.eCycle
  | .eAcc => s.energy.eAcc
  | .mcCycle => s.bill.mcCycle
  | .mcAcc => s.bill.mcAcc
  | .cents => s.bill.cents
  | .rateT1Peak => s.rates.t1Peak
  | .rateT1Shoulder => s.rates.t1Shoulder
  | .rateT1Offpeak => s.rates.t1Offpeak
  | .rateT2Flat => s.rates.t2Flat
  | .rateT3Flat => s.rates.t3Flat
  | .totPower => s.totals.power
  | .totEnergy => s.totals.energy
  | .totCost => s.totals.cost
  | .totFreq => s.totals.freq
  | .totVrms => s.totals.vrms
  | .totIrms => s.totals.irms
  | .totPf => s.totals.pf
  | .vbuf k => (s.vbuf k).signExtend 32
  | .ibuf k => (s.ibuf k).signExtend 32

/-- A bus read of an address: an unmapped one reads as zero (R20). -/
def State.readBus (s : State) (a : BusAddr) : Word :=
  match busDecode a with
  | some r => s.readReg r
  | none => 0

/-- A write of `CTRL` (R29, 47_scheduler R202): `RUN` only from 0 to 1, and not while a CMD POP waits; `TEST_MODE` at
any time (log 6). -/
def CtrlReg.write (r : CtrlReg) (waiting : Bool) (v : Word) : CtrlReg :=
  { run := r.run || (v.getLsbD 0 && !waiting), testMode := v.getLsbD 1 }

/-- A host write of `SEQ_PC`: a value above 9 is ignored (R22; the whole word counts, log 7). -/
def writeSeqPc (pc : BitVec 4) (v : Word) : BitVec 4 := if v.toNat ≤ 9 then v.setWidth 4 else pc

/-- A host write of `FT_CTL`: one with `STATE` = 3 is ignored (R38). -/
def TrackerRegs.writeCtl (t : TrackerRegs) (v : Word) : TrackerRegs :=
  match trackStateOf (v.extractLsb' 0 2) with
  | some st => { t with state := st, toggle := v.getLsbD 2 }
  | none => t

/-- A register takes a host write's low bits (R20). `STATUS` and `FAULT` take none, and `CMD` holds nothing. -/
def State.putReg (s : State) (v : Word) : BusReg → State
  | .opa => { s with regs.opa := v }
  | .opb => { s with regs.opb := v }
  | .res => { s with regs.res := v }
  | .rV => { s with regs.rV := v }
  | .rI => { s with regs.rI := v }
  | .ctrl => { s with ctrl := s.ctrl.write s.status.waiting v }
  | .status => s
  | .fault => s
  | .seqPc => { s with seqPc := writeSeqPc s.seqPc v }
  | .cmd => s
  | .tariffMode => { s with inputs.tariffMode := v.setWidth 16 }
  | .adcV => { s with inputs.adcV := v.setWidth 16 }
  | .adcI => { s with inputs.adcI := v.setWidth 16 }
  | .wcHms => { s with inputs.wcHms := v.setWidth 24 }
  | .wcDays => { s with inputs.wcDays := v.setWidth 16 }
  | .pcur => { s with channel.pcur := v.setWidth 4 }
  | .ccur => { s with channel.ccur := v.setWidth 4 }
  | .avail => { s with channel.avail := v }
  | .ftCtl => { s with tracker := s.tracker.writeCtl v }
  | .ftPrev => { s with tracker.prev := v }
  | .ftCount => { s with tracker.count := v }
  | .ftEntry => { s with tracker.entry := v }
  | .ftExit => { s with tracker.exit := v }
  | .ftPeriod => { s with tracker.period := v }
  | .periodDone => { s with tracker.periodDone := v }
  | .boundary => { s with tracker.boundary := v.getLsbD 0 }
  | .sumV2 => { s with agg.sumV2 := v }
  | .sumI2 => { s with agg.sumI2 := v }
  | .sumP => { s with agg.sumP := v }
  | .count => { s with agg.count := v }
  | .seedV => { s with agg.seedV := v }
  | .seedI => { s with agg.seedI := v }
  | .aggCtl => { s with agg.rmsCold := v.getLsbD 0 }
  | .nDone => { s with agg.nDone := v }
  | .eCycle => { s with energy.eCycle := v }
  | .eAcc => { s with energy.eAcc := v }
  | .mcCycle => { s with bill.mcCycle := v }
  | .mcAcc => { s with bill.mcAcc := v }
  | .cents => { s with bill.cents := v }
  | .rateT1Peak => { s with rates.t1Peak := v }
  | .rateT1Shoulder => { s with rates.t1Shoulder := v }
  | .rateT1Offpeak => { s with rates.t1Offpeak := v }
  | .rateT2Flat => { s with rates.t2Flat := v }
  | .rateT3Flat => { s with rates.t3Flat := v }
  | .totPower => { s with totals.power := v }
  | .totEnergy => { s with totals.energy := v }
  | .totCost => { s with totals.cost := v }
  | .totFreq => { s with totals.freq := v }
  | .totVrms => { s with totals.vrms := v }
  | .totIrms => { s with totals.irms := v }
  | .totPf => { s with totals.pf := v }
  | .vbuf k => { s with mem := s.mem.writeHalf (vbufWord k) (v.setWidth 16) }
  | .ibuf k => { s with mem := s.mem.writeHalf (ibufWord k) (v.setWidth 16) }

/-- May the host write a register of this class now (R20)? `CMD`'s own rule is in Machine/Agents.lean. -/
def State.hostMayWrite (s : State) : HostClass → Bool
  | .a => !s.status.halted
  | .d => !s.ctrl.run && !s.status.halted
  | .n => false
  | .command => false

/-- A host write of a register other than `CMD`: ignored without side effect where its class forbids it (R20, R214). -/
def State.hostWriteReg (s : State) (r : BusReg) (v : Word) : State :=
  if s.hostMayWrite r.hostClass then s.putReg v r else s

end Sys2Proof.Machine
end

