-- ==== Sys2Proof/Machine/FixedPoint.lean ====
section
/-! DEFINITION. FixedPointMath (40_fixedpointmath.md): the Q16 primitives, and TOQ16, MUL, MULU, DIV, DIVU, SQRT. -/

namespace Sys2Proof.Machine

/-- `TOQ16(c)` (R102). -/
def toQ16 (c : Int) : Word := wrap32 (c * 65536)

/-- `MUL(a, b)` (R103): signed, toward minus infinity. -/
def mulQ (a b : Word) : Flagged := narrowS ((a.toInt * b.toInt).fdiv 65536)

/-- `MULU(a, b)` (R104): unsigned. -/
def muluQ (a b : Word) : Flagged := narrowU ((a.toNat * b.toNat / 65536 : Nat) : Int)

/-- The quotient of `DIV(a, b)` for `b ≠ 0` (R105): signed, toward zero. -/
def divQ (a b : Word) : Flagged := narrowS ((a.toInt * 65536).tdiv b.toInt)

/-- The quotient of `DIVU(a, b)` for `b ≠ 0` (R106): unsigned. -/
def divuQ (a b : Word) : Flagged := narrowU ((a.toNat * 65536 / b.toNat : Nat) : Int)

/-- `DIV(a, b)` with its fatal condition (R105). -/
def divCalc (a b : Word) : Calc := if b = 0 then .fatal .divZero false else .value (divQ a b)

/-- `DIVU(a, b)` with its fatal condition (R106). -/
def divuCalc (a b : Word) : Calc := if b = 0 then .fatal .divZero false else .value (divuQ a b)

/-- One Newton step on a nonzero iterate (R107): the next iterate, and whether the divide or the 33-bit sum overflows. -/
def newtonStep (r x : Word) : Flagged :=
  let q := divuQ r x
  let sum := q.val.toNat + x.toNat
  ⟨wrap32 sum >>> 1, q.ovf || !fitsU sum⟩

/-- `repeat n times` of R107 from iterate `x`; a zero iterate is the divide's `DIV_ZERO`. -/
def newtonLoop (r : Word) : Nat → Word → Bool → Calc
  | 0, x, o => .value ⟨x, o⟩
  | n + 1, x, o =>
    if x = 0 then .fatal .divZero o
    else newtonLoop r n (newtonStep r x).val (o || (newtonStep r x).ovf)

/-- `SQRT(r, g, n)` (R107): the guess is tested once, before the first iteration, also for `n = 0`. -/
def sqrtQ (r g : Word) (n : Nat) : Calc :=
  if g = 0 then .fatal .zeroSeed false else newtonLoop r n g false

/-- `ADDS(a, b)` (R108). -/
def addS (a b : Word) : Flagged := narrowS (a.toInt + b.toInt)

/-- `ADDU(a, b)` (R108). -/
def addU (a b : Word) : Flagged := narrowU ((a.toNat + b.toNat : Nat) : Int)

/-- `RES <- r`, with the operation's flag. -/
def State.putRes (s : State) (w : Word) : State := { s with regs.res := w }

/-- `TOQ16` (R102). -/
def execToq16 (s : State) : Host.Outcome State Fault Refusal :=
  operate .toq16 (fun s => .done (s.putRes (toQ16 (lowHalfSigned s.regs.opa)))) s

/-- `MUL` (R103). -/
def execMul (s : State) : Host.Outcome State Fault Refusal :=
  operate .mul (fun s => .done ((s.noteOvf (mulQ s.regs.opa s.regs.opb).ovf).putRes (mulQ s.regs.opa s.regs.opb).val)) s

/-- `MULU` (R104). -/
def execMulu (s : State) : Host.Outcome State Fault Refusal :=
  operate .mulu
    (fun s => .done ((s.noteOvf (muluQ s.regs.opa s.regs.opb).ovf).putRes (muluQ s.regs.opa s.regs.opb).val)) s

/-- `DIV` (R105). -/
def execDiv (s : State) : Host.Outcome State Fault Refusal :=
  operate .div (fun s => (divCalc s.regs.opa s.regs.opb).andThen s fun w t => .done (t.putRes w)) s

/-- `DIVU` (R106). -/
def execDivu (s : State) : Host.Outcome State Fault Refusal :=
  operate .divu (fun s => (divuCalc s.regs.opa s.regs.opb).andThen s fun w t => .done (t.putRes w)) s

/-- `SQRT n` (R107). -/
def execSqrt (n : BitVec 8) (s : State) : Host.Outcome State Fault Refusal :=
  operate (.sqrt n)
    (fun s => (sqrtQ s.regs.opa s.regs.opb (iterations n)).andThen s fun w t => .done (t.putRes w)) s

end Sys2Proof.Machine
end

