-- ==== Sys2Proof/Machine/CycleAggregator.lean ====
section
/-! DEFINITION. CycleAggregator (43_cycleaggregator.md): ACC, FINP, FINRMS. -/

namespace Sys2Proof.Machine

/-- A running sum increased by a square or product, the flags of both lines together. -/
def accumulate (add : Word → Word → Flagged) (sum : Word) (m : Flagged) : Flagged :=
  ⟨(add sum m.val).val, m.ovf || (add sum m.val).ovf⟩

/-- The sum of squares after one sample whose scaled value is `x` (R151). -/
def addSquare (sum : Word) (x : Flagged) : Flagged :=
  let r := accumulate addU sum (mulQ x.val x.val)
  ⟨r.val, x.ovf || r.ovf⟩

/-- ACC's body (R151). -/
def State.accumulateSample (s : State) : State :=
  let v2 := addSquare s.agg.sumV2 (divQ s.regs.rV ten)
  let i2 := addSquare s.agg.sumI2 (mulQ s.regs.rI ten)
  let p := accumulate addS s.agg.sumP (mulQ s.regs.rV s.regs.rI)
  let n := increment s.agg.count
  { s.noteOvf (v2.ovf || i2.ovf || p.ovf || n.ovf) with
    agg.sumV2 := v2.val
    agg.sumI2 := i2.val
    agg.sumP := p.val
    agg.count := n.val }

/-- `ACC` (R151). -/
def execAcc (s : State) : Host.Outcome State Fault Refusal :=
  operate .acc (fun s => .done s.accumulateSample) s

/-- The signed mean of R154: Q16 sum by plain count, toward zero. -/
def meanSigned (sum count : Word) : Word := wrap32 (sum.toInt.tdiv count.toNat)

/-- The unsigned mean of R155: Q16 sum by plain count. -/
def meanUnsigned (sum count : Word) : Word := wrap32 ((sum.toNat / count.toNat : Nat) : Int)

/-- FINP's body (R154). -/
def finpBody (s : State) : Effect :=
  if s.agg.count = 0 then .fatal .zeroCount s
  else .done { s with
    totals.power := meanSigned s.agg.sumP s.agg.count
    agg.nDone := s.agg.count
    agg.sumP := 0 }

/-- `FINP` (R154). -/
def execFinp (s : State) : Host.Outcome State Fault Refusal := operate .finp finpBody s

/-- The iteration count of one FINRMS (R155, R156). -/
def rmsIterations (cold : Bool) : Nat := if cold then sqrtColdIter else sqrtWarmIter

/-- The voltage channel's root published (R155). -/
def State.publishVrms (s : State) (root : Word) : State :=
  { s.noteOvf (muluQ root ten).ovf with agg.seedV := root, totals.vrms := (muluQ root ten).val }

/-- The current channel's root published (R155). -/
def State.publishIrms (s : State) (root : Word) : State :=
  { s.noteOvf (divuQ root ten).ovf with agg.seedI := root, totals.irms := (divuQ root ten).val }

/-- The next cycle's start (R155, R162). -/
def State.clearCycle (s : State) : State :=
  { s with agg.sumV2 := 0, agg.sumI2 := 0, agg.count := 0, agg.rmsCold := false }

/-- The current channel's half of FINRMS (R155). -/
def finrmsCurrent (n : Nat) (s : State) : Effect :=
  (sqrtQ (meanUnsigned s.agg.sumI2 s.agg.count) s.agg.seedI n).andThen s fun root t =>
    .done (t.publishIrms root).clearCycle

/-- FINRMS's body (R155): the voltage channel is completed first. -/
def finrmsBody (s : State) : Effect :=
  if s.agg.count = 0 then .fatal .zeroCount s
  else
    let n := rmsIterations s.agg.rmsCold
    (sqrtQ (meanUnsigned s.agg.sumV2 s.agg.count) s.agg.seedV n).andThen s fun root t =>
      finrmsCurrent n (t.publishVrms root)

/-- `FINRMS` (R155). -/
def execFinrms (s : State) : Host.Outcome State Fault Refusal := operate .finrms finrmsBody s

end Sys2Proof.Machine
end

