-- ==== Sys2Proof/Machine/EnergyIntegrator.lean ====
section
/-! DEFINITION. EnergyIntegrator (44_energyintegrator.md): FINE, the energy accumulator with carry. -/

namespace Sys2Proof.Machine

/-- The completed cycle's duration in Q16 seconds (R166, R168). -/
def cycleSeconds (periodDone nDone : Word) : Flagged :=
  narrowS ((periodDone.toNat * nDone.toNat * 65536 / nsPerSecond : Nat) : Int)

/-- The test-mode multiplication (R167). -/
def testScale (testMode : Bool) (e : Word) : Flagged :=
  if testMode then narrowS (e.toInt * testFactor) else ⟨e, false⟩

/-- The energy of the completed cycle, Q16 watt-seconds (R166). -/
def cycleEnergy (power periodDone nDone : Word) (testMode : Bool) : Flagged :=
  let secs := cycleSeconds periodDone nDone
  let e := mulQ power secs.val
  let t := testScale testMode e.val
  ⟨t.val, secs.ovf || e.ovf || t.ovf⟩

/-- The carry once 3600 Ws are reached (R169): the step is added and the accumulator resets. -/
def State.energyCarryStep (s : State) : State :=
  if energyCarry.toInt ≤ s.energy.eAcc.toInt then
    { s.noteOvf (addU s.totals.energy energyStep).ovf with
      totals.energy := (addU s.totals.energy energyStep).val
      energy.eAcc := 0 }
  else s

/-- FINE's body (R166). -/
def State.integrateEnergy (s : State) : State :=
  let e := cycleEnergy s.totals.power s.tracker.periodDone s.agg.nDone s.ctrl.testMode
  let acc := addS s.energy.eAcc e.val
  State.energyCarryStep
    { s.noteOvf (e.ovf || acc.ovf) with
      energy.eCycle := e.val
      energy.eAcc := acc.val }

/-- `FINE` (R166). -/
def execFine (s : State) : Host.Outcome State Fault Refusal :=
  operate .fine (fun s => .done s.integrateEnergy) s

end Sys2Proof.Machine
end

