-- ==== Sys2Proof/Machine/FrequencyTracker.lean ====
section
/-! DEFINITION. FrequencyTracker (42_frequencytracker.md): FTSTEP, the zero-crossing detector and the
frequency-locked loop. -/

namespace Sys2Proof.Machine

/-- The rising crossing test (R134). -/
def risingCrossing (prev cur : Word) : Bool := decide (prev.toInt < 0) && decide (0 ≤ cur.toInt)

/-- `FRAC(cur, prev)` (R135). -/
def crossingFraction (cur prev : Word) : Word := wrap32 ((cur.toInt * fracScale).tdiv (cur.toInt - prev.toInt))

/-- `(old >> 4) * n` (R137). -/
def basePeriod (old n : Word) : Flagged := narrowU (((old.toNat >>> fllDivShift) * n.toNat : Nat) : Int)

/-- Are both fractions within [0, 1000] (R137)? -/
def fractionsInRange (e x : Word) : Bool :=
  decide (0 ≤ e.toInt) && decide (e.toInt ≤ 1000) && decide (0 ≤ x.toInt) && decide (x.toInt ≤ 1000)

/-- The correction term of R137. -/
def periodCorrection (old e x : Word) : Int :=
  ((e.toInt + x.toInt) * ((old.toNat >>> fllCorrShift : Nat) : Int)).tdiv fracScale

/-- The period computation (R137): old period, samples of the cycle, entry and exit fractions. -/
def newPeriod (old n e x : Word) : Flagged :=
  let p := basePeriod old n
  if fractionsInRange e x then
    let p2 := narrowU (p.val.toNat + periodCorrection old e x)
    ⟨p2.val, p.ovf || p2.ovf⟩
  else p

/-- The divisor of the frequency formula (R138). -/
def freqDivisor (new : Word) : Nat := 16 * (new.toNat / 10)

/-- `FT_PREV <- x`, last in every state (R131). -/
def State.rememberSample (s : State) (x : Word) : State := { s with tracker.prev := x }

/-- The TRACKING step's crossing (R133): `prev` is the previous sample, `x` this one. -/
def State.lockOn (s : State) (prev x : Word) : State :=
  { s with
    tracker.entry := crossingFraction x prev
    tracker.count := 0
    tracker.toggle := false
    tracker.state := .locked }

/-- An entry crossing (R136). -/
def State.enterCycle (s : State) (f : Word) : State :=
  { s with tracker.entry := f, tracker.count := 0, tracker.toggle := true }

/-- The boundary actions with a nonzero divisor (R138), in order. -/
def State.reportBoundary (s : State) (new : Word) : State :=
  { s with
    totals.freq := wrap32 ((nsPerSecond / freqDivisor new : Nat) : Int)
    periodEvents := s.periodEvents ++ [⟨new, s.params.ftRestart⟩]
    tracker.period := new
    tracker.count := 0
    tracker.toggle := false
    tracker.boundary := true }

/-- An exit crossing (R136): `FT_EXIT`, the new period, and the boundary or `DIV_ZERO` (R138, R140). -/
def exitCrossing (s : State) (x f : Word) : Effect :=
  let s := { s with tracker.exit := f }
  let new := newPeriod s.tracker.period s.tracker.count s.tracker.entry s.tracker.exit
  let s := s.noteOvf new.ovf
  if freqDivisor new.val = 0 then .fatal .divZero s
  else .done ((s.reportBoundary new.val).rememberSample x)

/-- The LOCKED step (R136): this sample is counted first. -/
def lockedStep (s : State) (x : Word) : Effect :=
  let n := increment s.tracker.count
  let t := { s.noteOvf n.ovf with tracker.count := n.val }
  if risingCrossing s.tracker.prev x then
    let f := crossingFraction x s.tracker.prev
    if s.tracker.toggle then exitCrossing t x f
    else .done ((t.enterCycle f).rememberSample x)
  else .done (t.rememberSample x)

/-- FTSTEP's first lines: `BOUNDARY <- 0` and the period in effect (R131, R139). -/
def State.beginStep (s : State) : State :=
  { s with tracker.boundary := false, tracker.periodDone := s.tracker.period }

/-- FTSTEP's body (R131 to R136). -/
def ftstepBody (s : State) : Effect :=
  let x := s.regs.rV
  let t := s.beginStep
  match s.tracker.state with
  | .unsynced => .done ({ t with tracker.state := .tracking }.rememberSample x)
  | .tracking =>
    if risingCrossing s.tracker.prev x then .done ((t.lockOn s.tracker.prev x).rememberSample x)
    else .done (t.rememberSample x)
  | .locked => lockedStep t x

/-- `FTSTEP` (R131). -/
def execFtstep (s : State) : Host.Outcome State Fault Refusal := operate .ftstep ftstepBody s

end Sys2Proof.Machine
end

