-- ==== Sys2Proof/Machine/PowerFactor.lean ====
section
/-! DEFINITION. PowerFactorEstimator (46_powerfactor.md): FINPF. -/

namespace Sys2Proof.Machine

/-- FINPF's body (R191, R192): a zero product keeps `TOT_PF`. -/
def State.estimatePf (s : State) : State :=
  let p := muluQ s.totals.vrms s.totals.irms
  let s := s.noteOvf p.ovf
  if p.val = 0 then s
  else
    let q := divQ s.totals.power p.val
    { s.noteOvf (decide (2 ^ 31 ≤ p.val.toNat) || q.ovf) with totals.pf := q.val }

/-- `FINPF` (R191). -/
def execFinpf (s : State) : Host.Outcome State Fault Refusal :=
  operate .finpf (fun s => .done s.estimatePf) s

end Sys2Proof.Machine
end

