-- ==== Sys2Proof/Machine/SampleChannel.lean ====
section
/-! DEFINITION. SampleChannel (41_samplechannel.md): PUSH, POP, the conversion of a raw code, blocking and wait failure. -/

namespace Sys2Proof.Machine

/-- PUSH's pseudocode in the source's order (R121), with the codes already in `ADC_V` and `ADC_I`. A PUSH that makes
`AVAIL > 0` makes a suspended POP eligible to proceed (R121, R123). -/
def State.pushSample (s : State) : State :=
  let k := s.channel.pcur
  let t := increment s.channel.avail
  { s.noteOvf t.ovf with
    mem := (s.mem.writeHalf (vbufWord k) s.inputs.adcV).writeHalf (ibufWord k) s.inputs.adcI
    channel.avail := t.val
    channel.pcur := k + 1
    popLifted := s.popLifted || (s.status.waiting && decide (t.val ≠ 0)) }

/-- `PUSH` (R121). -/
def execPush (s : State) : Host.Outcome State Fault Refusal :=
  operate .push (fun s => .done s.pushSample) s

/-- Volts at the ADC pin, Q16, toward zero (R124). -/
def pinVolts (p : Params) (code : Int) : Flagged := narrowS ((p.adcVoltageRange.toInt * code).tdiv p.adcMax)

/-- `CONV(code, ratio)` (R124). -/
def conv (p : Params) (code ratio : Int) : Flagged :=
  let a := pinVolts p code
  let b := narrowS (a.val.toInt * ratio)
  ⟨b.val, a.ovf || b.ovf⟩

/-- POP finds `AVAIL = 0`: it sets `WAITING` and suspends before taking (R123). -/
def State.blockPop (s : State) : State := { s with status.waiting := true, popLifted := false }

/-- POP from the decrement on (R122); a resumed POP first clears `WAITING` (R123). -/
def State.takeSample (s : State) : State :=
  let v := conv s.params (rawCode (s.vbuf s.channel.ccur)) ratioV
  let i := conv s.params (rawCode (s.ibuf s.channel.ccur)) ratioI
  { s.noteOvf (v.ovf || i.ovf) with
    status.waiting := false
    popLifted := false
    channel.avail := s.channel.avail - 1
    regs.rV := v.val
    regs.rI := i.val
    channel.ccur := s.channel.ccur + 1 }

/-- POP's body (R122, R123). -/
def popBody (s : State) : Effect := if s.channel.avail = 0 then .blocked s.blockPop else .done s.takeSample

/-- `POP` (R122, R123): fresh, or resumed when `AVAIL > 0`. -/
def execPop (s : State) : Host.Outcome State Fault Refusal := operate .pop popBody s

/-- Is a POP suspended (R123)? After a wait failure `WAITING` stays 1, but the machine is halted (R125). -/
def State.popSuspended (s : State) : Bool := s.status.waiting && !s.status.halted

/-- Has a PUSH lifted the hold of the suspended POP, with a sample there to take (R123, R71)? -/
def State.popMayResume (s : State) : Bool := s.popLifted && decide (s.channel.avail ≠ 0)

/-- The `wait_fail` input (R125, R228): a suspended POP raises `Fatal(WAIT_FAIL)`; at any other time no effect. -/
def State.assertWaitFail (s : State) : State :=
  if s.popSuspended then s.takeFatal (Instr.opcode .pop) .waitFail else s

end Sys2Proof.Machine
end

