-- ==== Sys2Proof/Machine/Scheduler.lean ====
section
/-! DEFINITION. CalculationScheduler's own operations (47_scheduler.md): NOP, BNB, JMP. -/

namespace Sys2Proof.Machine

/-- `NOP` (R198). -/
def execNop (s : State) : Host.Outcome State Fault Refusal := operate .nop .done s

/-- `BNB t` (R199): branch if no boundary. -/
def execBnb (t : BitVec 8) (s : State) : Host.Outcome State Fault Refusal :=
  transfer (fun s => if s.tracker.boundary then s.seqPc + 1 else romTarget t) s

/-- `JMP t` (R200). -/
def execJmp (t : BitVec 8) (s : State) : Host.Outcome State Fault Refusal :=
  transfer (fun _ => romTarget t) s

end Sys2Proof.Machine
end

