-- ==== Sys2Proof/Machine/TariffBilling.lean ====
section
/-! DEFINITION. TariffBillingEngine (45_tariffbilling.md): BILL, rate selection and the cost carry chain. -/

namespace Sys2Proof.Machine

/-- The billing mode of R176. -/
inductive TariffMode where
  | timeOfUse
  | flat2
  | flat3
  deriving DecidableEq, Repr

/-- The mode `TARIFF_MODE` selects, `none` if it is not 1, 2 or 3 (R176, R177). -/
def tariffModeOf (m : BitVec 16) : Option TariffMode :=
  if m = 1 then some .timeOfUse else if m = 2 then some .flat2 else if m = 3 then some .flat3 else none

/-- The time-of-use rate by hour, peak tested first (R176, R178). -/
def timeOfUseRate (r : RateRegs) (h : Nat) : Word :=
  if 14 ≤ h ∧ h ≤ 20 then r.t1Peak
  else if (7 ≤ h ∧ h ≤ 13) ∨ (20 ≤ h ∧ h ≤ 21) then r.t1Shoulder
  else r.t1Offpeak

/-- The rate of a mode (R176). -/
def rateOf (r : RateRegs) (hms : BitVec 24) : TariffMode → Word
  | .timeOfUse => timeOfUseRate r (hoursField hms)
  | .flat2 => r.t2Flat
  | .flat3 => r.t3Flat

/-- `STATUS.TMODE_BAD <- 1` where the mode is unrecognised (R177). -/
def State.noteMode (s : State) (bad : Bool) : State := { s with status.tmodeBad := s.status.tmodeBad || bad }

/-- The cycle's cost in millicents (R180): multiply, then divide by 3600.0. -/
def cycleCost (rate eCycle : Word) : Flagged :=
  let m := mulQ rate eCycle
  let d := divQ m.val wsPerWh
  ⟨d.val, m.ovf || d.ovf⟩

/-- What the millicent carry leaves (R176, R182). -/
def mcResidue (p : Params) (mcAcc : Word) : Word :=
  match p.costCarryResidue with
  | .zero => 0
  | .subtract => wrap32 (mcAcc.toInt - mcCarry.toInt)

/-- What the dollar carry leaves (R176, R182). -/
def centsResidue (p : Params) (cents : Word) : Word :=
  match p.costCarryResidue with
  | .zero => 0
  | .subtract => wrap32 ((cents.toNat : Int) - centsCarry)

/-- The first carry: millicents exceeding 1000 add one cent (R181). -/
def State.centCarryStep (s : State) : State :=
  if mcCarry.toInt < s.bill.mcAcc.toInt then
    { s.noteOvf (addU s.bill.cents 1).ovf with
      bill.cents := (addU s.bill.cents 1).val
      bill.mcAcc := mcResidue s.params s.bill.mcAcc }
  else s

/-- The second carry: cents exceeding 100 add one dollar (R181). -/
def State.dollarCarryStep (s : State) : State :=
  if centsCarry < s.bill.cents.toNat then
    { s.noteOvf (addU s.totals.cost dollar).ovf with
      totals.cost := (addU s.totals.cost dollar).val
      bill.cents := centsResidue s.params s.bill.cents }
  else s

/-- BILL's body (R176); an unrecognised mode is billed as mode 1 (R177). -/
def State.billCycle (s : State) : State :=
  let mode := tariffModeOf s.inputs.tariffMode
  let mc := cycleCost (rateOf s.rates s.inputs.wcHms (mode.getD .timeOfUse)) s.energy.eCycle
  let acc := addS s.bill.mcAcc mc.val
  State.dollarCarryStep <| State.centCarryStep
    { (s.noteMode mode.isNone).noteOvf (mc.ovf || acc.ovf) with
      bill.mcCycle := mc.val
      bill.mcAcc := acc.val }

/-- `BILL` (R176). -/
def execBill (s : State) : Host.Outcome State Fault Refusal :=
  operate .bill (fun s => .done s.billCycle) s

end Sys2Proof.Machine
end

