-- ==== Sys2Proof/Machine/Dispatch.lean ====
section
/-! DEFINITION. One arm per operation of the opcode map (30_encoding R83). -/

namespace Sys2Proof.Machine

def exec (i : Instr) (s : State) : Host.Outcome State Fault Refusal :=
  match i with
  | .nop => Sys2Proof.Machine.execNop s
  | .toq16 => Sys2Proof.Machine.execToq16 s
  | .mul => Sys2Proof.Machine.execMul s
  | .mulu => Sys2Proof.Machine.execMulu s
  | .div => Sys2Proof.Machine.execDiv s
  | .divu => Sys2Proof.Machine.execDivu s
  | .sqrt n => Sys2Proof.Machine.execSqrt n s
  | .push => Sys2Proof.Machine.execPush s
  | .pop => Sys2Proof.Machine.execPop s
  | .ftstep => Sys2Proof.Machine.execFtstep s
  | .acc => Sys2Proof.Machine.execAcc s
  | .finp => Sys2Proof.Machine.execFinp s
  | .finrms => Sys2Proof.Machine.execFinrms s
  | .fine => Sys2Proof.Machine.execFine s
  | .bill => Sys2Proof.Machine.execBill s
  | .finpf => Sys2Proof.Machine.execFinpf s
  | .bnb t => Sys2Proof.Machine.execBnb t s
  | .jmp t => Sys2Proof.Machine.execJmp t s

end Sys2Proof.Machine
end

