-- ==== Sys2Proof/Machine/Agents.lean ====
section
/-! DEFINITION. The agents' moves (60_exceptions R230), each one atomic step of the total order (20_memory R70). -/

namespace Sys2Proof.Machine

/-- The operation the sequencer fetches at `SEQ_PC` (47_scheduler R201). -/
def fetchOperation (pc : BitVec 4) : Option Instr :=
  match romWord pc with
  | none => none
  | some w =>
    match decode w with
    | .ok i => some i
    | .error _ => none

/-- The consumer's next move: the second half of a suspended POP once a PUSH has lifted its hold (41_samplechannel
R123), or in RUN mode the operation at `SEQ_PC` (R201). With neither, it has no move (log 15). -/
def consumerMove (s : State) : Host.Outcome State Fault Refusal :=
  if s.status.halted then .next s
  else if s.status.waiting then (if s.popMayResume then exec .pop s else .next s)
  else if s.ctrl.run then
    match fetchOperation s.seqPc with
    | some i => exec i s
    | none => .fault .romFetch
  else .next s

/-- A write of `CMD` (10_state R31, 30_encoding R86, R88): in DIRECT mode with no POP waiting it executes the word;
otherwise, or where the word is unexecutable, it sets `CMD_ERR` (log 9); while halted it changes nothing. -/
def commandMove (w : Word) (s : State) : Host.Outcome State Fault Refusal :=
  if s.status.halted then .next s
  else if s.ctrl.run || s.status.waiting then .next s.cmdRefused
  else match decode w with
    | .ok i => exec i s
    | .error _ => .next s.cmdRefused

/-- One bus write (20_memory R67): an unmapped address ignores it (10_state R20). -/
def busWriteMove (a : BusAddr) (v : Word) (s : State) : Host.Outcome State Fault Refusal :=
  match busDecode a with
  | none => .next s
  | some .cmd => commandMove v s
  | some r => .next (s.hostWriteReg r v)

/-- One bus read: no side effect on the core; the data goes to the reader (R67, log 13). -/
def State.busReadMove (s : State) (a : BusAddr) : State := { s with busReads := s.busReads ++ [⟨a, s.readBus a⟩] }

/-- The producer's tick (60_exceptions R225): while halted the codes are dropped (R214). It needs no operation word
and moves no `SEQ_PC` (41_samplechannel R121). -/
def State.tickMove (s : State) (v i : Half) : State :=
  if s.status.halted then s else State.pushSample { s with inputs.adcV := v, inputs.adcI := i }

/-- One move of one agent. -/
def applyEvent (e : Event) (s : State) : Host.Outcome State Fault Refusal :=
  match e with
  | .consumer => consumerMove s
  | .tick v i => .next (s.tickMove v i)
  | .busWrite a v => busWriteMove a v s
  | .busRead a => .next (s.busReadMove a)
  | .waitFail => .next s.assertWaitFail
  | .reset u => .next (s.afterReset u)

/-- The address of `CMD` (10_state R31). -/
def cmdAddr : BusAddr := 0x0C

/-- What lets the consumer execute an operation at once: not halted, no POP suspended, the mode asked for. -/
def State.readyToRun (s : State) (run : Bool) : State :=
  { s with status.halted := false, status.waiting := false, popLifted := false, ctrl.run := run }

/-- The ROM index whose word is exactly this one and of format T, which only the ROM can run (30_encoding R81). -/
def romOnlyIndex (w : Word) : Option (BitVec 4) :=
  match decode w with
  | .ok i => if i.romOnly then romIndexOf w else none
  | .error _ => none

/-- The state whose very next step fetches and runs the word: from the hardwired ROM for a format T word it holds,
else from `CMD` (log 17). -/
def State.fetching (s : State) (w : Word) : State :=
  match romOnlyIndex w with
  | some k => { s.readyToRun true with seqPc := k, schedule := .consumer :: s.schedule }
  | none => { s.readyToRun false with schedule := .busWrite cmdAddr w :: s.schedule }

end Sys2Proof.Machine
end

