-- ==== Sys2Proof/Machine/Step.lean ====
section
/-! DEFINITION. One step of the total order (20_memory R70): the schedule's next move, the consumer's when none is
scheduled (R71; log 1). -/

namespace Sys2Proof.Machine

/-- One step. -/
def step (s : State) : Host.Outcome State Fault Refusal :=
  match s.schedule with
  | [] => applyEvent .consumer s
  | e :: rest => applyEvent e { s with schedule := rest }

/-- `s` with the operation word of `nbits` bits where the next step fetches it (log 17). -/
def State.withFetchWord (s : State) (nbits w : Nat) : State := s.fetching (tableWord nbits w)

end Sys2Proof.Machine
end

