-- ==== Sys2Proof/Safety.lean ====
section
/-! DEFINITION. What counts as a safe run, in the terms the claims use: the machine's invariant, the lockstep premise,
what a step leaves alone, and the samples on their way from producer to consumer. -/

namespace Sys2Proof.Machine

/-- Every listed byte is a byte of a window entry (20_memory R61). -/
def Memory.inWindow (m : Memory) : Bool := m.all (fun c => isWindowByte c.1)

/-- The invariant of every run. -/
structure State.Inv (s : State) : Prop where
  /-- `SEQ_PC` is a ROM index (10_state R22, R23) -/
  seqPc : s.seqPc.toNat ≤ 9
  /-- the window's memory is in its canonical form -/
  memWf : s.mem.wf = true
  /-- no access falls outside the window (20_memory R61) -/
  memWindow : s.mem.inWindow = true
  /-- `FAULT` is written only by a fatal condition (10_state R30) -/
  faultClear : s.status.halted = false → s.fault = { cause := none, op := 0, pc := 0, src := false }
  /-- the halt records its cause, the kept `SEQ_PC` and the source (60_exceptions R213) -/
  faultTaken : s.status.halted = true →
    s.fault.cause ≠ none ∧ s.fault.pc = s.seqPc ∧ s.fault.src = s.ctrl.run
  /-- in RUN mode a POP is suspended only at ROM index 0 (47_scheduler R201) -/
  suspendedAtPop : s.ctrl.run = true → s.status.waiting = true → s.seqPc = 0
  /-- only a suspended POP's hold can have been lifted (41_samplechannel R123) -/
  liftedWaits : s.popLifted = true → s.status.waiting = true

/-- `(PCUR − CCUR) mod 16 = AVAIL mod 16` (10_state R37). -/
def State.lockstep (s : State) : Prop := s.channel.pcur - s.channel.ccur = s.channel.avail.setWidth 4

/-- The window's entry pair at a cursor. -/
def State.windowPair (s : State) (k : BitVec 4) : Half × Half := (s.vbuf k, s.ibuf k)

/-- The signalled and not yet consumed samples, the next first: `AVAIL` entries from the consumer's cursor (R36). -/
def State.queued (s : State) : List (Half × Half) :=
  (List.range s.channel.avail.toNat).map fun j => s.windowPair (s.channel.ccur + BitVec.ofNat 4 j)

/-- Everything but the listed bus registers is as before: every other register of the address map, every byte of
memory, the hold of a suspended POP, the emitted events, the reads' data, the schedule and the parameters. -/
structure KeepsAllBut (rs : List BusReg) (s t : State) : Prop where
  regs : ∀ r, r ∉ rs → t.readReg r = s.readReg r
  bytes : ∀ a, t.mem.readByte a = s.mem.readByte a
  popLifted : t.popLifted = s.popLifted
  periodEvents : t.periodEvents = s.periodEvents
  busReads : t.busReads = s.busReads
  schedule : t.schedule = s.schedule
  params : t.params = s.params

/-- An operation other than BNB and JMP has completed: only the listed registers, `OVF` and `SEQ_PC` have changed,
`OVF` is set where `ovf` holds and kept otherwise, and `SEQ_PC` is one on in RUN mode (R197, R201). -/
structure Completes (rs : List BusReg) (ovf : Bool) (s t : State) : Prop where
  frame : KeepsAllBut (.status :: .seqPc :: rs) s t
  status : t.status = { s.status with ovf := s.status.ovf || ovf }
  seqPc : t.seqPc = if s.ctrl.run then s.seqPc + 1 else s.seqPc

/-- The halt of 60_exceptions R213 has been taken: only the listed registers (the writes before the detection), `FAULT`
and `STATUS` have changed. -/
structure Halts (i : Instr) (c : Cause) (rs : List BusReg) (ovf : Bool) (s t : State) : Prop where
  frame : KeepsAllBut (.status :: .fault :: rs) s t
  status : t.status = { s.status with ovf := s.status.ovf || ovf, halted := true }
  fault : t.fault = { cause := some c, op := i.opcode, pc := s.seqPc, src := s.ctrl.run }

/-- The move the next step makes (20_memory R71). -/
def State.nextMove (s : State) : Event := s.schedule.headD .consumer

/-- The state the next move is made in: its entry taken off the schedule. -/
def State.popped (s : State) : State := { s with schedule := s.schedule.tail }

end Sys2Proof.Machine
end

