-- ==== Sys2Proof/Certificates/Slice0/Obligations.lean ====
section
/-! DEFINITION. The statements for the provers. Each says which rule of spec/ it formalises. Quotients, ranges and wraps
are written out on integers here, apart from the functions the meanings use. -/

open Sys2Proof Sys2Proof.Machine

namespace Sys2Proof.Statements

/-- The pattern of an exact integer: `wrap32` of 00_scope R13. -/
def pat (z : Int) : Word := BitVec.ofInt 32 z

/-- Outside the signed 32-bit range. -/
def outS (z : Int) : Bool := decide (z < -2147483648) || decide (2147483647 < z)

/-- Outside the unsigned 32-bit range. -/
def outU (z : Int) : Bool := decide (z < 0) || decide (4294967295 < z)

/-- The exact product of R103, shifted right by 16 toward minus infinity. -/
def mulExact (a b : Word) : Int := (a.toInt * b.toInt) / 65536

/-- The exact quotient of R105, toward zero. -/
def divExact (a b : Word) : Int := (a.toInt * 65536).tdiv b.toInt

/-- The exact product of R104. -/
def muluExact (a b : Word) : Nat := a.toNat * b.toNat / 65536

/-- The exact quotient of R106. -/
def divuExact (a b : Word) : Nat := a.toNat * 65536 / b.toNat

/-- The next iterate of R107, all in naturals: wrapped quotient plus iterate, wrapped, halved. -/
def nextIterate (r x : Word) : Word := BitVec.ofNat 32 ((divuExact r x % 4294967296 + x.toNat) % 4294967296 / 2)

/-- Whether one iteration of R107 calls `ovf()`. -/
def iterateOverflows (r x : Word) : Bool :=
  decide (4294967296 ≤ divuExact r x) || decide (4294967296 ≤ divuExact r x % 4294967296 + x.toNat)

/-- `x` is the run of `n` iterations of R107 from the guess `g`, no iterate before the last being zero. -/
def IsNewtonRun (r g : Word) (n : Nat) (x : Nat → Word) : Prop :=
  x 0 = g ∧ ∀ k < n, x k ≠ 0 ∧ x (k + 1) = nextIterate r (x k)

/-- Whether any of `n` iterations overflows. -/
def runOverflows (r : Word) (n : Nat) (x : Nat → Word) : Bool :=
  (List.range n).any fun k => iterateOverflows r (x k)

/-- The exact steps of CONV (R124): pin volts, then times the ratio. -/
def convExact (p : Params) (code ratio : Int) : Int × Int :=
  let a := (p.adcVoltageRange.toInt * code).tdiv p.adcMax
  (a, (pat a).toInt * ratio)

/-- A rising crossing (R134). -/
def Crosses (prev cur : Word) : Prop := prev.toInt < 0 ∧ 0 ≤ cur.toInt

/-- FRAC (R135). -/
def fraction (cur prev : Word) : Word := pat ((cur.toInt * 1000).tdiv (cur.toInt - prev.toInt))

/-- R137's exact base period. -/
def exactPeriod (old n : Word) : Nat := old.toNat / 16 * n.toNat

/-- R137's range test on the two fractions. -/
def InRange (e x : Word) : Prop := 0 ≤ e.toInt ∧ e.toInt ≤ 1000 ∧ 0 ≤ x.toInt ∧ x.toInt ≤ 1000

/-- R137's correction added to the wrapped base period. -/
def correctedPeriod (old n e x : Word) : Nat :=
  exactPeriod old n % 4294967296 + (e.toNat + x.toNat) * (old.toNat / 65536) / 1000

/-- The next step is the execution of an FTSTEP: the sequencer's at ROM index 1 (R195), or a CMD write of its word
(R83, R86). -/
def RunsFtstep (s : State) : Prop :=
  s.status.halted = false ∧ s.status.waiting = false ∧
    (s.ctrl.run = true ∧ s.nextMove = .consumer ∧ s.seqPc = 1 ∨
      s.ctrl.run = false ∧ s.nextMove = .busWrite 0x0C 0x00000020)

/-- The causes' codes (60_exceptions R211). -/
def causeNumber : Option Cause → Nat
  | none => 0
  | some .divZero => 1
  | some .zeroCount => 2
  | some .zeroSeed => 3
  | some .waitFail => 4

/-- `FT_CTL.STATE` (R38). -/
def trackNumber : TrackState → Nat
  | .unsynced => 0
  | .tracking => 1
  | .locked => 2

/-- The unmapped addresses: those that R49 does not list. -/
def unmapped : List Nat := [0x05, 0x06, 0x07, 0x12, 0x13, 0x17, 0x32, 0x33, 0x34, 0x35, 0x36, 0x37, 0x3F]

/-- One row of R49: address, register, bits, host class. -/
structure MapRow where
  addr : BusAddr
  reg : BusReg
  bits : Nat
  hostClass : HostClass
  deriving DecidableEq, Repr

/-- R49, 0x00 to 0x11. -/
def controlRows : List MapRow :=
  [⟨0x00, .opa, 32, .d⟩, ⟨0x01, .opb, 32, .d⟩, ⟨0x02, .res, 32, .d⟩, ⟨0x03, .rV, 32, .d⟩, ⟨0x04, .rI, 32, .d⟩,
    ⟨0x08, .ctrl, 2, .a⟩, ⟨0x09, .status, 5, .n⟩, ⟨0x0A, .fault, 21, .n⟩, ⟨0x0B, .seqPc, 4, .d⟩,
    ⟨0x0C, .cmd, 32, .command⟩, ⟨0x0D, .tariffMode, 16, .a⟩, ⟨0x0E, .adcV, 16, .a⟩, ⟨0x0F, .adcI, 16, .a⟩,
    ⟨0x10, .wcHms, 24, .a⟩, ⟨0x11, .wcDays, 16, .a⟩]

/-- R49, 0x14 to 0x1F. -/
def unitRows : List MapRow :=
  [⟨0x14, .pcur, 4, .d⟩, ⟨0x15, .ccur, 4, .d⟩, ⟨0x16, .avail, 32, .d⟩, ⟨0x18, .ftCtl, 3, .d⟩,
    ⟨0x19, .ftPrev, 32, .d⟩, ⟨0x1A, .ftCount, 32, .d⟩, ⟨0x1B, .ftEntry, 32, .d⟩, ⟨0x1C, .ftExit, 32, .d⟩,
    ⟨0x1D, .ftPeriod, 32, .d⟩, ⟨0x1E, .periodDone, 32, .d⟩, ⟨0x1F, .boundary, 1, .d⟩]

/-- R49, 0x20 to 0x2C. -/
def cycleRows : List MapRow :=
  [⟨0x20, .sumV2, 32, .d⟩, ⟨0x21, .sumI2, 32, .d⟩, ⟨0x22, .sumP, 32, .d⟩, ⟨0x23, .count, 32, .d⟩,
    ⟨0x24, .seedV, 32, .d⟩, ⟨0x25, .seedI, 32, .d⟩, ⟨0x26, .aggCtl, 1, .d⟩, ⟨0x27, .nDone, 32, .d⟩,
    ⟨0x28, .eCycle, 32, .d⟩, ⟨0x29, .eAcc, 32, .d⟩, ⟨0x2A, .mcCycle, 32, .d⟩, ⟨0x2B, .mcAcc, 32, .d⟩,
    ⟨0x2C, .cents, 32, .d⟩]

/-- R49, 0x2D to 0x3E. -/
def outputRows : List MapRow :=
  [⟨0x2D, .rateT1Peak, 32, .d⟩, ⟨0x2E, .rateT1Shoulder, 32, .d⟩, ⟨0x2F, .rateT1Offpeak, 32, .d⟩,
    ⟨0x30, .rateT2Flat, 32, .d⟩, ⟨0x31, .rateT3Flat, 32, .d⟩, ⟨0x38, .totPower, 32, .d⟩,
    ⟨0x39, .totEnergy, 32, .d⟩, ⟨0x3A, .totCost, 32, .d⟩, ⟨0x3B, .totFreq, 32, .d⟩, ⟨0x3C, .totVrms, 32, .d⟩,
    ⟨0x3D, .totIrms, 32, .d⟩, ⟨0x3E, .totPf, 32, .d⟩]

/-- R49's rows but for the windows. -/
def registerMap : List MapRow := controlRows ++ unitRows ++ cycleRows ++ outputRows

/-- The class A registers but for CTRL (R32, R33, R34). -/
def collaboratorMap : List MapRow :=
  [⟨0x0D, .tariffMode, 16, .a⟩, ⟨0x0E, .adcV, 16, .a⟩, ⟨0x0F, .adcI, 16, .a⟩, ⟨0x10, .wcHms, 24, .a⟩,
    ⟨0x11, .wcDays, 16, .a⟩]

/-- The rate that R176 to R178 select: R178's table of hours for mode 1 and for an unrecognised mode. -/
def billedRate (r : RateRegs) (mode : BitVec 16) (hms : BitVec 24) : Word :=
  if mode = 2 then r.t2Flat
  else if mode = 3 then r.t3Flat
  else
    let h := hms.toNat / 65536
    if h ≤ 6 then r.t1Offpeak
    else if h ≤ 13 then r.t1Shoulder
    else if h ≤ 20 then r.t1Peak
    else if h = 21 then r.t1Shoulder
    else r.t1Offpeak

end Sys2Proof.Statements

open Sys2Proof.Statements

/-! ## Encoding -/

/-- Every well-formed operation is what its own word decodes to (30_encoding R80, R83, R84, R90). -/
def Obligations.DecodeOfEncodeIsIdentity : Prop :=
  ∀ i : Instr, i.wf = true → decode (encode i) = .ok i

/-- Every executable word is the one word of the well-formed operation it decodes to (R80, R83, R84). -/
def Obligations.EncodeOfDecodeIsIdentity : Prop :=
  ∀ (w : Word) (i : Instr), decode w = .ok i → i.wf = true ∧ encode i = w

/-- R84: which words are executable, in numbers: the zero field is zero, and the opcode is one of R83's with the `arg`
its format allows. -/
def Obligations.ExecutableWordsAreTheOpcodeMap : Prop :=
  ∀ w : Word, (∃ i, decode w = .ok i) ↔
    w.toNat / 65536 = 0 ∧
    (w.toNat % 256 ∈ [0, 1, 2, 3, 4, 5, 0x10, 0x11, 0x20, 0x30, 0x31, 0x32, 0x40, 0x50, 0x60] ∧ w.toNat / 256 = 0 ∨
      w.toNat % 256 = 6 ∨
      w.toNat % 256 ∈ [0x70, 0x71] ∧ w.toNat / 256 ≤ 9)

/-- Words written out from R83 and R90, one per family, and unexecutable ones of R84, decode as R83 and R84 say. -/
def Obligations.WordsOfTheSpecDecodeRight : Prop :=
  decode 0x00000000 = .ok .nop ∧ decode 0x00000002 = .ok .mul ∧ decode 0x00000F06 = .ok (.sqrt 15) ∧
  decode 0x00000011 = .ok .pop ∧ decode 0x00000020 = .ok .ftstep ∧ decode 0x00000032 = .ok .finrms ∧
  decode 0x00000040 = .ok .fine ∧ decode 0x00000050 = .ok .bill ∧ decode 0x00000060 = .ok .finpf ∧
  decode 0x00000971 = .ok (.jmp 9) ∧ decode 0x00000102 = .error .argNotZero ∧
  decode 0x00010002 = .error .zeroFieldNonzero ∧ decode 0x000000FF = .error .reservedOpcode ∧
  decode 0x00000A70 = .error .targetOutOfRange

/-! ## A step runs the decoded operation -/

/-- R86, R81: a `CMD` write of an executable word in DIRECT mode, not halted, no POP waiting, is the execution of the
operation it decodes to. (Format T words execute as the refusal of R88: see BnbAndJmpSetOnlyTheProgramCounter.) -/
def Obligations.StepRunsTheWordWrittenToCmd : Prop :=
  ∀ (s : State) (w : Word) (rest : List Event) (i : Instr),
    s.schedule = .busWrite 0x0C w :: rest → s.status.halted = false → s.ctrl.run = false →
    s.status.waiting = false → decode w = .ok i →
    step s = exec i { s with schedule := rest }

/-- R201, R195: in RUN mode, not halted, no POP suspended, the consumer's step is the execution of the operation at
`SEQ_PC`; the ten operations are R195's. -/
def Obligations.StepRunsTheRomOperation : Prop :=
  ∀ (s : State) (i : Instr),
    s.nextMove = .consumer → s.status.halted = false → s.status.waiting = false → s.ctrl.run = true →
    ([Instr.pop, .ftstep, .acc, .bnb 0, .finp, .finrms, .fine, .bill, .finpf, .jmp 0] : List Instr)[s.seqPc.toNat]? =
      some i →
    step s = exec i s.popped

/-- R88: a `CMD` write that is unexecutable, or of format T, or that comes in RUN mode or while a POP waits, sets
`CMD_ERR` and changes nothing else; while halted it changes nothing at all. -/
def Obligations.RefusedCmdWriteOnlySetsCmdErr : Prop :=
  ∀ (s : State) (w : Word) (rest : List Event), s.schedule = .busWrite 0x0C w :: rest →
    (s.status.halted = false →
      ((∀ i, decode w ≠ .ok i) ∨ (∃ t, decode w = .ok (.bnb t) ∨ decode w = .ok (.jmp t)) ∨ s.ctrl.run = true ∨
        s.status.waiting = true) →
      step s = .next { s with schedule := rest, status.cmdErr := true }) ∧
    (s.status.halted = true → step s = .next { s with schedule := rest })

/-! ## FixedPointMath -/

/-- TOQ16 (40_fixedpointmath R102). -/
def Obligations.Toq16ShiftsTheSignedLowHalf : Prop :=
  ∀ s : State, s.status.halted = false →
    ∃ t, exec .toq16 s = .next t ∧
      t.regs.res.toInt = (BitVec.ofNat 16 s.regs.opa.toNat).toInt * 65536 ∧ Completes [.res] false s t

/-- MUL (R103). -/
def Obligations.MulFloorsTheSignedProduct : Prop :=
  ∀ s : State, s.status.halted = false →
    ∃ t, exec .mul s = .next t ∧ t.regs.res = pat (mulExact s.regs.opa s.regs.opb) ∧
      Completes [.res] (outS (mulExact s.regs.opa s.regs.opb)) s t

/-- MULU (R104). -/
def Obligations.MuluDropsTheLowProductBits : Prop :=
  ∀ s : State, s.status.halted = false →
    ∃ t, exec .mulu s = .next t ∧ t.regs.res.toNat = muluExact s.regs.opa s.regs.opb % 4294967296 ∧
      Completes [.res] (decide (4294967296 ≤ muluExact s.regs.opa s.regs.opb)) s t

/-- DIV (R105): a nonzero divisor gives the quotient toward zero; a zero divisor halts with `DIV_ZERO`, for every
dividend, RES unchanged. -/
def Obligations.DivRoundsTowardZero : Prop :=
  ∀ s : State, s.status.halted = false →
    (s.regs.opb ≠ 0 →
      ∃ t, exec .div s = .next t ∧ t.regs.res = pat (divExact s.regs.opa s.regs.opb) ∧
        Completes [.res] (outS (divExact s.regs.opa s.regs.opb)) s t) ∧
    (s.regs.opb = 0 → ∃ t, exec .div s = .next t ∧ Halts .div .divZero [] false s t)

/-- DIVU (R106): likewise, unsigned. -/
def Obligations.DivuDividesUnsigned : Prop :=
  ∀ s : State, s.status.halted = false →
    (s.regs.opb ≠ 0 →
      ∃ t, exec .divu s = .next t ∧ t.regs.res.toNat = divuExact s.regs.opa s.regs.opb % 4294967296 ∧
        Completes [.res] (decide (4294967296 ≤ divuExact s.regs.opa s.regs.opb)) s t) ∧
    (s.regs.opb = 0 → ∃ t, exec .divu s = .next t ∧ Halts .divu .divZero [] false s t)

/-- SQRT n (R107). With a nonzero guess and no zero iterate before the last, RES is the n-th iterate. It halts with
`ZERO_SEED` on a zero guess, also for `n = 0`, and with `DIV_ZERO` where the iterate after `k` iterations is zero and an
iteration is left; RES is unchanged then. -/
def Obligations.SqrtRunsExactlyNIterations : Prop :=
  ∀ (s : State) (n : BitVec 8), s.status.halted = false →
    (∀ x : Nat → Word, s.regs.opb ≠ 0 → IsNewtonRun s.regs.opa s.regs.opb n.toNat x →
      ∃ t, exec (.sqrt n) s = .next t ∧ t.regs.res = x n.toNat ∧
        Completes [.res] (runOverflows s.regs.opa n.toNat x) s t) ∧
    (s.regs.opb = 0 → ∃ t, exec (.sqrt n) s = .next t ∧ Halts (.sqrt n) .zeroSeed [] false s t) ∧
    (∀ (k : Nat) (x : Nat → Word), s.regs.opb ≠ 0 → k < n.toNat → IsNewtonRun s.regs.opa s.regs.opb k x → x k = 0 →
      ∃ t, exec (.sqrt n) s = .next t ∧
        Halts (.sqrt n) .divZero [] (runOverflows s.regs.opa k x) s t)

/-- R112: for positive `a`, `b` with no overflow of the quotient, `MUL(DIV(a, b), b)` is at most `a` and above
`a − (b_real + 1)` LSB, `b_real` being `S(b)/65536`. -/
def Obligations.MulOfDivStaysWithinTheDivisor : Prop :=
  ∀ a b : Word, 0 < a.toInt → 0 < b.toInt → (divQ a b).ovf = false →
    (mulQ (divQ a b).val b).ovf = false ∧ (mulQ (divQ a b).val b).val.toInt ≤ a.toInt ∧
    (a.toInt - (mulQ (divQ a b).val b).val.toInt) * 65536 < b.toInt + 65536

/-- R113: for every integer 1 to 1000, `SQRT(x, x, 15)` never exceeds the exact root of `x` in Q16 and falls short of
it by less than one LSB. -/
def Obligations.SqrtOfSmallIntegersIsExactToOneLsb : Prop :=
  ∀ x : Nat, 1 ≤ x → x ≤ 1000 →
    ∃ r : Word, sqrtQ (toQ16 x) (toQ16 x) 15 = .value ⟨r, false⟩ ∧
      r.toNat * r.toNat ≤ x * 4294967296 ∧ x * 4294967296 < (r.toNat + 1) * (r.toNat + 1)

/-! ## SampleChannel -/

/-- PUSH (41_samplechannel R121): the codes go to the entries at `PCUR`, and every byte outside those two entries keeps
its value. The canonical form is part of the invariant that EveryStepKeepsTheInvariant states. -/
def Obligations.PushStoresAtTheProducersCursor : Prop :=
  ∀ s : State, s.mem.wf = true → s.status.halted = false →
    ∃ t, exec .push s = .next t ∧
      t.vbuf s.channel.pcur = s.inputs.adcV ∧ t.ibuf s.channel.pcur = s.inputs.adcI ∧
      (∀ a, a ∉ [byteAddr (vbufWord s.channel.pcur) 0, byteAddr (vbufWord s.channel.pcur) 1,
          byteAddr (ibufWord s.channel.pcur) 0, byteAddr (ibufWord s.channel.pcur) 1] →
        t.mem.readByte a = s.mem.readByte a) ∧
      t.channel.avail.toNat = (s.channel.avail.toNat + 1) % 4294967296 ∧
      t.channel.pcur.toNat = (s.channel.pcur.toNat + 1) % 16 ∧
      (∀ r, r ∉ [.status, .seqPc, .pcur, .avail, .vbuf s.channel.pcur, .ibuf s.channel.pcur] →
        t.readReg r = s.readReg r) ∧
      t.status = { s.status with ovf := s.status.ovf || decide (s.channel.avail.toNat = 4294967295) } ∧
      t.seqPc = (if s.ctrl.run then s.seqPc + 1 else s.seqPc) ∧
      t.popLifted = (s.popLifted || s.status.waiting && decide (s.channel.avail.toNat ≠ 4294967295)) ∧
      t.periodEvents = s.periodEvents ∧ t.busReads = s.busReads ∧ t.schedule = s.schedule ∧ t.params = s.params

/-- POP with a sample there (R122, R124): one signal is taken, the entries at `CCUR` are converted, the cursor moves. -/
def Obligations.PopTakesTheSampleAtTheConsumersCursor : Prop :=
  ∀ s : State, s.status.halted = false → s.channel.avail ≠ 0 →
    let v := convExact s.params (s.vbuf s.channel.ccur).toInt 100
    let i := convExact s.params (s.ibuf s.channel.ccur).toInt 1
    ∃ t, exec .pop s = .next t ∧
      t.regs.rV = pat v.2 ∧ t.regs.rI = pat i.2 ∧
      t.channel.avail.toNat = s.channel.avail.toNat - 1 ∧
      t.channel.ccur.toNat = (s.channel.ccur.toNat + 1) % 16 ∧
      t.status = { s.status with waiting := false, ovf := s.status.ovf || outS v.1 || outS v.2 || outS i.1 || outS i.2 } ∧
      t.seqPc = (if s.ctrl.run then s.seqPc + 1 else s.seqPc) ∧ t.popLifted = false ∧
      KeepsAllBut [.status, .seqPc, .rV, .rI, .avail, .ccur] { s with popLifted := false } t

/-- POP without a sample (R123): it sets `WAITING` and suspends before taking; `SEQ_PC` stays. -/
def Obligations.PopWithoutASampleBlocks : Prop :=
  ∀ s : State, s.status.halted = false → s.channel.avail = 0 →
    ∃ t, exec .pop s = .next t ∧ t.status = { s.status with waiting := true } ∧ t.popLifted = false ∧
      KeepsAllBut [.status] { s with popLifted := false } t

/-- R123, 20_memory R71: while a POP is suspended the consumer's move changes nothing until a PUSH has lifted the hold
and a sample is there; then it is the POP, which clears `WAITING`. (That only a PUSH lifts the hold, a host write of
`AVAIL` not, and that a lifted POP which finds `AVAIL = 0` goes on waiting, is the model's reading, log 8; that the move
then answers the same state is the model's choice, log 15.) -/
def Obligations.SuspendedPopProceedsOnlyAfterAPush : Prop :=
  ∀ s : State, s.nextMove = .consumer → s.status.halted = false → s.status.waiting = true →
    (s.popLifted = false ∨ s.channel.avail = 0 → step s = .next s.popped) ∧
    (s.popLifted = true → s.channel.avail ≠ 0 →
      step s = exec .pop s.popped ∧ ∃ t, step s = .next t ∧ t.status.waiting = false)

/-- 60_exceptions R225, 41_samplechannel R121, R123: a tick is `ADC_V <- v; ADC_I <- i; PUSH` in one step, in both modes;
a PUSH that makes `AVAIL > 0` lifts the hold of a suspended POP; while halted it does nothing. (`popLifted`, the bit that
records the lift, is the model's own, log 8; that a tick moves no `SEQ_PC` is the model's reading, log 10.) -/
def Obligations.TickDeliversOneSamplePair : Prop :=
  ∀ (s : State) (v i : Half) (rest : List Event), s.schedule = .tick v i :: rest →
    (s.status.halted = true → step s = .next { s with schedule := rest }) ∧
    (s.mem.wf = true → s.status.halted = false →
      ∃ t, step s = .next t ∧ t.inputs.adcV = v ∧ t.inputs.adcI = i ∧
        t.vbuf s.channel.pcur = v ∧ t.ibuf s.channel.pcur = i ∧
        t.channel.avail.toNat = (s.channel.avail.toNat + 1) % 4294967296 ∧ t.channel.pcur = s.channel.pcur + 1 ∧
        t.status = { s.status with ovf := s.status.ovf || decide (s.channel.avail.toNat = 4294967295) } ∧
        t.popLifted = (s.popLifted || s.status.waiting && decide (s.channel.avail.toNat ≠ 4294967295)) ∧
        t.periodEvents = s.periodEvents ∧ t.busReads = s.busReads ∧ t.schedule = rest ∧ t.params = s.params ∧
        (∀ a, a ∉ [byteAddr (vbufWord s.channel.pcur) 0, byteAddr (vbufWord s.channel.pcur) 1,
            byteAddr (ibufWord s.channel.pcur) 0, byteAddr (ibufWord s.channel.pcur) 1] →
          t.mem.readByte a = s.mem.readByte a) ∧
        ∀ r, r ∉ [.adcV, .adcI, .status, .pcur, .avail, .vbuf s.channel.pcur, .ibuf s.channel.pcur] →
          t.readReg r = s.readReg r)

/-- R125, R228: `wait_fail` halts a suspended POP with `WAIT_FAIL`, `WAITING` staying 1; at any other time it does
nothing. -/
def Obligations.WaitFailHaltsASuspendedPopOnly : Prop :=
  ∀ (s : State) (rest : List Event), s.schedule = .waitFail :: rest →
    (s.status.halted = false → s.status.waiting = true →
      ∃ t, step s = .next t ∧ t.status.waiting = true ∧ Halts .pop .waitFail [] false { s with schedule := rest } t) ∧
    (s.status.halted = true ∨ s.status.waiting = false → step s = .next { s with schedule := rest })

/-- R73, R126: the window is a first-in first-out queue. With the cursors in lockstep and `AVAIL ≤ 15` a PUSH appends
its pair behind the pending ones; a POP delivers the oldest pending pair, converted, and leaves the rest in order. -/
def Obligations.WindowIsAFifoInLockstep : Prop :=
  ∀ s : State, s.mem.wf = true → s.status.halted = false → s.lockstep →
    (s.channel.avail.toNat ≤ 15 →
      ∃ t, exec .push s = .next t ∧ t.lockstep ∧ t.queued = s.queued ++ [(s.inputs.adcV, s.inputs.adcI)]) ∧
    (s.channel.avail ≠ 0 →
      ∃ t v i, exec .pop s = .next t ∧ t.lockstep ∧ s.queued = (v, i) :: t.queued ∧
        t.regs.rV = pat (convExact s.params v.toInt 100).2 ∧ t.regs.rI = pat (convExact s.params i.toInt 1).2)

/-- R37: `(PCUR − CCUR) mod 16 = AVAIL mod 16` is kept by every step but a bus write in DIRECT mode, by which a host
may write the cursors. -/
def Obligations.LockstepIsKept : Prop :=
  ∀ s t : State, s.lockstep → step s = .next t →
    (s.ctrl.run = true ∨ ∀ a v, s.nextMove = .busWrite a v → a = 0x0C) → t.lockstep

/-! ## FrequencyTracker -/

/-- FTSTEP without a crossing to act on (42_frequencytracker R131 to R134, R136): the first sample only arms the
tracker; TRACKING waits; LOCKED counts the sample. -/
def Obligations.FtstepWithoutACrossing : Prop :=
  ∀ s : State, s.status.halted = false →
    (s.tracker.state = .unsynced ∨ ¬ Crosses s.tracker.prev s.regs.rV) →
    let n := s.tracker.count.toNat + 1
    ∃ t, exec .ftstep s = .next t ∧
      t.tracker = { s.tracker with
        boundary := false
        periodDone := s.tracker.period
        prev := s.regs.rV
        state := if s.tracker.state = .unsynced then .tracking else s.tracker.state
        count := if s.tracker.state = .locked then pat n else s.tracker.count } ∧
      Completes [.boundary, .periodDone, .ftPrev, .ftCtl, .ftCount]
        (decide (s.tracker.state = .locked) && decide (s.tracker.count.toNat = 4294967295)) s t

/-- R133: the first rising crossing, in TRACKING, stores its fraction, clears count and flag, and locks. -/
def Obligations.FirstCrossingLocks : Prop :=
  ∀ s : State, s.status.halted = false → s.tracker.state = .tracking → Crosses s.tracker.prev s.regs.rV →
    ∃ t, exec .ftstep s = .next t ∧
      t.tracker = { s.tracker with
        boundary := false
        periodDone := s.tracker.period
        prev := s.regs.rV
        entry := fraction s.regs.rV s.tracker.prev
        count := 0
        toggle := false
        state := .locked } ∧
      Completes [.boundary, .periodDone, .ftPrev, .ftEntry, .ftCount, .ftCtl] false s t

/-- R136: a crossing in LOCKED with the flag clear is an entry: fraction stored, count cleared, flag set, no boundary. -/
def Obligations.EntryCrossingStartsTheMeasuredCycle : Prop :=
  ∀ s : State, s.status.halted = false → s.tracker.state = .locked → s.tracker.toggle = false →
    Crosses s.tracker.prev s.regs.rV →
    ∃ t, exec .ftstep s = .next t ∧
      t.tracker = { s.tracker with
        boundary := false
        periodDone := s.tracker.period
        prev := s.regs.rV
        entry := fraction s.regs.rV s.tracker.prev
        count := 0
        toggle := true } ∧
      Completes [.boundary, .periodDone, .ftPrev, .ftEntry, .ftCount, .ftCtl]
        (decide (s.tracker.count.toNat = 4294967295)) s t

/-- R136 to R140, R226: a crossing in LOCKED with the flag set is an exit. `new` is R137's period of the entry fraction
and this crossing's; with `new ≥ 10` it is a boundary: frequency, one `set_period` event, the period installed, the old
one reported; with `new < 10` it is the halt `DIV_ZERO` with what R140 lists written by then. -/
def Obligations.ExitCrossingReportsABoundaryOrHalts : Prop :=
  ∀ (s : State) (new : Word) (o : Bool), s.status.halted = false → s.tracker.state = .locked →
    s.tracker.toggle = true → Crosses s.tracker.prev s.regs.rV →
    let n := pat (s.tracker.count.toNat + 1)
    let f := fraction s.regs.rV s.tracker.prev
    let countOvf := decide (s.tracker.count.toNat = 4294967295)
    (InRange s.tracker.entry f →
      new = pat (correctedPeriod s.tracker.period n s.tracker.entry f) ∧
      o = (countOvf || decide (4294967296 ≤ exactPeriod s.tracker.period n) ||
        decide (4294967296 ≤ correctedPeriod s.tracker.period n s.tracker.entry f))) →
    (¬ InRange s.tracker.entry f →
      new = pat (exactPeriod s.tracker.period n) ∧
      o = (countOvf || decide (4294967296 ≤ exactPeriod s.tracker.period n))) →
    (10 ≤ new.toNat →
      ∃ t, exec .ftstep s = .next t ∧
        t.tracker = { s.tracker with
          boundary := true
          periodDone := s.tracker.period
          prev := s.regs.rV
          exit := f
          period := new
          count := 0
          toggle := false } ∧
        t.totals.freq.toNat = 1000000000 / (16 * (new.toNat / 10)) ∧
        t.periodEvents = s.periodEvents ++ [⟨new, s.params.ftRestart⟩] ∧
        Completes [.boundary, .periodDone, .ftPrev, .ftExit, .ftPeriod, .ftCount, .ftCtl, .totFreq] o
          { s with periodEvents := t.periodEvents } t) ∧
    (new.toNat < 10 →
      ∃ t, exec .ftstep s = .next t ∧
        t.tracker = { s.tracker with boundary := false, periodDone := s.tracker.period, count := n, exit := f } ∧
        Halts .ftstep .divZero [.boundary, .periodDone, .ftCount, .ftExit] o s t)

/-- R135: the fraction is the exact quotient toward zero, wrapped; at a crossing it lies in 0 to 999. -/
def Obligations.CrossingFractionIsBelowOneThousand : Prop :=
  ∀ prev cur : Word, crossingFraction cur prev = fraction cur prev ∧
    (Crosses prev cur → 0 ≤ (crossingFraction cur prev).toInt ∧ (crossingFraction cur prev).toInt ≤ 999)

/-- R134: the crossing test, and that two consecutive samples never both cross: after an FTSTEP that completes on a
crossing, no next sample is one. -/
def Obligations.NoTwoConsecutiveCrossings : Prop :=
  (∀ prev cur : Word, risingCrossing prev cur = true ↔ prev.toInt < 0 ∧ 0 ≤ cur.toInt) ∧
    ∀ (s t : State) (x : Word), s.status.halted = false → Crosses s.tracker.prev s.regs.rV →
      exec .ftstep s = .next t → t.status.halted = false → ¬ Crosses t.tracker.prev x

/-- R130: but for reset and a host's write of `FT_CTL`, `STATE` only stays, or goes UNSYNCED to TRACKING, or TRACKING to
LOCKED. -/
def Obligations.TrackerStateOnlyAdvances : Prop :=
  ∀ s t : State, step s = .next t → (∀ u, s.nextMove ≠ .reset u) → (∀ v, s.nextMove ≠ .busWrite 0x18 v) →
    t.tracker.state = s.tracker.state ∨ (s.tracker.state = .unsynced ∧ t.tracker.state = .tracking) ∨
      (s.tracker.state = .tracking ∧ t.tracker.state = .locked)

/-! ## CycleAggregator -/

/-- ACC (43_cycleaggregator R151). -/
def Obligations.AccAddsOneSampleToTheSums : Prop :=
  ∀ s : State, s.status.halted = false →
    let vs := divExact s.regs.rV 0x000A0000
    let v2 := mulExact (pat vs) (pat vs)
    let is := mulExact s.regs.rI 0x000A0000
    let i2 := mulExact (pat is) (pat is)
    let p := mulExact s.regs.rV s.regs.rI
    let sv := s.agg.sumV2.toNat + (pat v2).toNat
    let si := s.agg.sumI2.toNat + (pat i2).toNat
    let sp := s.agg.sumP.toInt + (pat p).toInt
    ∃ t, exec .acc s = .next t ∧
      t.agg = { s.agg with sumV2 := pat sv, sumI2 := pat si, sumP := pat sp, count := pat (s.agg.count.toNat + 1) } ∧
      Completes [.sumV2, .sumI2, .sumP, .count]
        (outS vs || outS v2 || outU sv || outS is || outS i2 || outU si || outS p || outS sp ||
          outU (s.agg.count.toNat + 1)) s t

/-- FINP (R154): with samples counted, the mean toward zero, which fits, the latched count, the power sum cleared; on a
zero count the halt `ZERO_COUNT`, nothing written. -/
def Obligations.FinpReportsTheMeanPower : Prop :=
  ∀ s : State, s.status.halted = false →
    (s.agg.count ≠ 0 →
      ∃ t, exec .finp s = .next t ∧ t.totals.power.toInt = s.agg.sumP.toInt.tdiv s.agg.count.toNat ∧
        t.agg = { s.agg with nDone := s.agg.count, sumP := 0 } ∧ Completes [.totPower, .nDone, .sumP] false s t) ∧
    (s.agg.count = 0 → ∃ t, exec .finp s = .next t ∧ Halts .finp .zeroCount [] false s t)

/-- FINRMS (R155, R156): with samples counted, nonzero seeds and Newton runs `x`, `y` of the two means (15 iterations
when cold, else 1) that meet no zero iterate, the seeds become the last iterates, the totals those times 10 and divided
by 10, and the sums, the count and the cold flag are cleared. -/
def Obligations.FinrmsPublishesBothChannels : Prop :=
  ∀ (s : State) (x y : Nat → Word),
    let n := if s.agg.rmsCold then 15 else 1
    let rv := BitVec.ofNat 32 (s.agg.sumV2.toNat / s.agg.count.toNat)
    let ri := BitVec.ofNat 32 (s.agg.sumI2.toNat / s.agg.count.toNat)
    s.status.halted = false → s.agg.count ≠ 0 → s.agg.seedV ≠ 0 → s.agg.seedI ≠ 0 →
    IsNewtonRun rv s.agg.seedV n x → IsNewtonRun ri s.agg.seedI n y →
    ∃ t, exec .finrms s = .next t ∧
      t.agg = { s.agg with seedV := x n, seedI := y n, sumV2 := 0, sumI2 := 0, count := 0, rmsCold := false } ∧
      t.totals.vrms.toNat = (x n).toNat * 10 % 4294967296 ∧ t.totals.irms.toNat = (y n).toNat / 10 ∧
      Completes [.seedV, .seedI, .totVrms, .totIrms, .sumV2, .sumI2, .count, .aggCtl]
        (runOverflows rv n x || decide (4294967296 ≤ (x n).toNat * 10) || runOverflows ri n y) s t

/-- R155, R212: FINRMS halts with `ZERO_COUNT` on a zero count, with `ZERO_SEED` on a zero seed and with `DIV_ZERO` on a zero iterate with an iteration
left, the voltage channel's before anything is written, the current channel's after the voltage channel's seed and
total. -/
def Obligations.FinrmsHaltsOnAZeroCountSeedOrIterate : Prop :=
  ∀ (s : State) (x : Nat → Word),
    let n := if s.agg.rmsCold then 15 else 1
    let rv := BitVec.ofNat 32 (s.agg.sumV2.toNat / s.agg.count.toNat)
    let ri := BitVec.ofNat 32 (s.agg.sumI2.toNat / s.agg.count.toNat)
    let ov := runOverflows rv n x || decide (4294967296 ≤ (x n).toNat * 10)
    s.status.halted = false →
    (s.agg.count = 0 → ∃ t, exec .finrms s = .next t ∧ Halts .finrms .zeroCount [] false s t) ∧
    (s.agg.count ≠ 0 → s.agg.seedV = 0 → ∃ t, exec .finrms s = .next t ∧ Halts .finrms .zeroSeed [] false s t) ∧
    (∀ k < n, s.agg.count ≠ 0 → s.agg.seedV ≠ 0 → IsNewtonRun rv s.agg.seedV k x → x k = 0 →
      ∃ t, exec .finrms s = .next t ∧ Halts .finrms .divZero [] (runOverflows rv k x) s t) ∧
    (s.agg.count ≠ 0 → s.agg.seedV ≠ 0 → IsNewtonRun rv s.agg.seedV n x →
      (s.agg.seedI = 0 →
        ∃ t, exec .finrms s = .next t ∧ t.agg = { s.agg with seedV := x n } ∧
          t.totals.vrms.toNat = (x n).toNat * 10 % 4294967296 ∧ Halts .finrms .zeroSeed [.seedV, .totVrms] ov s t) ∧
      (∀ (k : Nat) (y : Nat → Word), k < n → s.agg.seedI ≠ 0 → IsNewtonRun ri s.agg.seedI k y → y k = 0 →
        ∃ t, exec .finrms s = .next t ∧ t.agg = { s.agg with seedV := x n } ∧
          t.totals.vrms.toNat = (x n).toNat * 10 % 4294967296 ∧
          Halts .finrms .divZero [.seedV, .totVrms] (ov || runOverflows ri k y) s t))

/-! ## EnergyIntegrator, TariffBillingEngine, PowerFactorEstimator -/

/-- FINE (44_energyintegrator R166 to R170): Q16 seconds of the completed cycle, its energy (times 3600 in test mode),
the accumulator, and at 3600 Ws or more one step of 65 and a cleared accumulator. -/
def Obligations.FineIntegratesTheCyclesEnergy : Prop :=
  ∀ s : State, s.status.halted = false →
    let secs := s.tracker.periodDone.toNat * s.agg.nDone.toNat * 65536 / 1000000000
    let e := mulExact s.totals.power (pat secs)
    let e' := if s.ctrl.testMode then (pat e).toInt * 3600 else (pat e).toInt
    let acc := s.energy.eAcc.toInt + (pat e').toInt
    let carry := decide (0x0E100000 ≤ (pat acc).toInt)
    ∃ t, exec .fine s = .next t ∧
      t.energy = { eCycle := pat e', eAcc := if carry then 0 else pat acc } ∧
      t.totals.energy.toNat = (s.totals.energy.toNat + if carry then 65 else 0) % 4294967296 ∧
      Completes [.eCycle, .eAcc, .totEnergy]
        (outS secs || outS e || outS e' || outS acc || carry && outU (s.totals.energy.toNat + 65)) s t

/-- BILL (45_tariffbilling R176 to R182): the rate of R177 and R178, the cycle's millicents by multiply then divide by
3600.0, and the two carries with the instance's residue; `TMODE_BAD` where the mode is none of 1, 2, 3. -/
def Obligations.BillAccruesTheCyclesCost : Prop :=
  ∀ s : State, s.status.halted = false →
    let m := mulExact (billedRate s.rates s.inputs.tariffMode s.inputs.wcHms) s.energy.eCycle
    let mc := divExact (pat m) 0x0E100000
    let acc := s.bill.mcAcc.toInt + (pat mc).toInt
    let cent := decide (0x03E80000 < (pat acc).toInt)
    let cents := (s.bill.cents.toNat + if cent then 1 else 0) % 4294967296
    let dollar := decide (100 < cents)
    let keep := decide (s.params.costCarryResidue = .subtract)
    ∃ t, exec .bill s = .next t ∧
      t.bill.mcCycle = pat mc ∧
      t.bill.mcAcc = (if cent then if keep then pat ((pat acc).toInt - 0x03E80000) else 0 else pat acc) ∧
      t.bill.cents.toNat = (if dollar then if keep then cents - 100 else 0 else cents) ∧
      t.totals.cost.toNat = (s.totals.cost.toNat + if dollar then 65536 else 0) % 4294967296 ∧
      t.status = { s.status with
        tmodeBad := s.status.tmodeBad || decide (s.inputs.tariffMode.toNat ∉ [1, 2, 3])
        ovf := s.status.ovf || (outS m || outS mc || outS acc || cent && decide (s.bill.cents.toNat = 4294967295) ||
          dollar && outU (s.totals.cost.toNat + 65536)) } ∧
      t.seqPc = (if s.ctrl.run then s.seqPc + 1 else s.seqPc) ∧
      KeepsAllBut [.status, .seqPc, .mcCycle, .mcAcc, .cents, .totCost] s t

/-- FINPF (46_powerfactor R191, R192): signed quotient by the truncated RMS product; a zero product keeps `TOT_PF`. -/
def Obligations.FinpfDividesByTheRmsProduct : Prop :=
  ∀ s : State, s.status.halted = false →
    let m := muluExact s.totals.vrms s.totals.irms
    let p := BitVec.ofNat 32 m
    let q := divExact s.totals.power p
    ∃ t, exec .finpf s = .next t ∧ t.totals.pf = (if p = 0 then s.totals.pf else pat q) ∧
      Completes [.totPf]
        (decide (4294967296 ≤ m) || decide (p ≠ 0) && (decide (2147483648 ≤ p.toNat) || outS q)) s t

/-! ## CalculationScheduler -/

/-- NOP (47_scheduler R198): nothing changes but, in RUN mode, `SEQ_PC`. -/
def Obligations.NopChangesNothingElse : Prop :=
  ∀ s : State, s.status.halted = false →
    exec .nop s = .next { s with seqPc := if s.ctrl.run then s.seqPc + 1 else s.seqPc }

/-- BNB t and JMP t (R199, R200), at every target 0 to 9: in RUN mode nothing but `SEQ_PC` changes; they are executable
only from the ROM, so in DIRECT mode they execute nothing and set `CMD_ERR`. -/
def Obligations.BnbAndJmpSetOnlyTheProgramCounter : Prop :=
  ∀ (s : State) (k : BitVec 8), s.status.halted = false → k.toNat ≤ 9 →
    (s.ctrl.run = true →
      (∃ t, exec (.jmp k) s = .next t ∧ t.seqPc.toNat = k.toNat ∧ KeepsAllBut [.seqPc] s t) ∧
      (∃ t, exec (.bnb k) s = .next t ∧
        t.seqPc = (if s.tracker.boundary then s.seqPc + 1 else BitVec.ofNat 4 k.toNat) ∧ KeepsAllBut [.seqPc] s t)) ∧
    (s.ctrl.run = false → ∀ i, i = .jmp k ∨ i = .bnb k →
      ∃ t, exec i s = .next t ∧ t.status = { s.status with cmdErr := true } ∧ KeepsAllBut [.status] s t)

/-- R203: in RUN mode, but for reset, each total changes only by its own finalising operation of the ROM: TOT_FREQ by the
FTSTEP that sets BOUNDARY, TOT_POWER by FINP, the RMS totals by FINRMS, then TOT_ENERGY, TOT_COST, TOT_PF. -/
def Obligations.TotalsChangeOnlyByTheirOwnOperation : Prop :=
  ∀ s t : State, step s = .next t → s.ctrl.run = true → (∀ u, s.nextMove ≠ .reset u) →
    (t.totals ≠ s.totals → s.nextMove = .consumer) ∧
    (t.totals.freq ≠ s.totals.freq → s.seqPc = 1 ∧ t.tracker.boundary = true) ∧
    (t.totals.power ≠ s.totals.power → s.seqPc = 4) ∧
    (t.totals.vrms ≠ s.totals.vrms → s.seqPc = 5) ∧
    (t.totals.irms ≠ s.totals.irms → s.seqPc = 5) ∧
    (t.totals.energy ≠ s.totals.energy → s.seqPc = 6) ∧
    (t.totals.cost ≠ s.totals.cost → s.seqPc = 7) ∧
    (t.totals.pf ≠ s.totals.pf → s.seqPc = 8)

/-! ## The halt, reset and the bus -/

/-- 60_exceptions R214: while halted every move but reset leaves every register, every byte and the output events as
they are; a bus read still returns the register's value. -/
def Obligations.HaltedMachineIsFrozen : Prop :=
  ∀ s : State, s.status.halted = true → (∀ u, s.nextMove ≠ .reset u) →
    ∃ t, step s = .next t ∧ KeepsAllBut [] { s.popped with busReads := t.busReads } t ∧
      t.busReads = (match s.nextMove with
        | .busRead a => s.busReads ++ [⟨a, s.readBus a⟩]
        | _ => s.busReads)

/-- 70_reset R240, R241, 10_state R49: reset, from any state, halted or suspended, gives every register the spec names a
reset value for that value, and the unspecified ones (R242) what the environment supplies. -/
def Obligations.ResetGivesEveryRegisterItsResetValue : Prop :=
  ∀ (s : State) (u : ResetInputs) (rest : List Event), s.schedule = .reset u :: rest →
    ∃ t, step s = .next t ∧
      (∀ r, r ∉ [.tariffMode, .wcHms, .wcDays, .ftPeriod, .seedV, .seedI, .aggCtl] →
        (∀ k, r ≠ .vbuf k ∧ r ≠ .ibuf k) → t.readReg r = 0) ∧
      t.tracker.period = s.params.periodReset ∧ t.agg.seedV = 0x00010000 ∧ t.agg.seedI = 0x00010000 ∧
      t.agg.rmsCold = true ∧ t.popLifted = false ∧
      t.inputs.tariffMode = u.tariffMode ∧ t.inputs.wcHms = u.wcHms ∧ t.inputs.wcDays = u.wcDays ∧
      (∀ k : BitVec 4, t.vbuf k = u.windows.getD k.toNat 0 ∧ t.ibuf k = u.windows.getD (16 + k.toNat) 0) ∧
      t.periodEvents = s.periodEvents ∧ t.schedule = rest ∧ t.params = s.params

/-- 10_state R49, R20, R46: the address map, row by row: which register each mapped address names, its host class, and
that its upper bits read as zero; the two windows; and exactly R49's gaps are unmapped. -/
def Obligations.BusDecodeIsTheAddressMap : Prop :=
  (∀ row ∈ registerMap, busDecode row.addr = some row.reg ∧ row.reg.hostClass = row.hostClass ∧
    ∀ s : State, (s.readReg row.reg).toNat < 2 ^ row.bits) ∧
  (∀ (a : BusAddr) (k : BitVec 4), (a.val = 0x40 + k.toNat → busDecode a = some (.vbuf k)) ∧
    (a.val = 0x50 + k.toNat → busDecode a = some (.ibuf k)) ∧
    BusReg.hostClass (.vbuf k) = .d ∧ BusReg.hostClass (.ibuf k) = .d) ∧
  ∀ a : BusAddr, busDecode a = none ↔ a.val ∈ unmapped

/-- 10_state R25, R29, R30 with the codes of 60_exceptions R211, R31, R38, R39, R46: what each register reads as on the
bus, in numbers for those made of fields; window entries sign extended, CMD zero. -/
def Obligations.RegistersReadAsBusWords : Prop :=
  ∀ s : State,
    (s.readReg .status).toNat = s.status.halted.toNat + 2 * s.status.ovf.toNat + 4 * s.status.tmodeBad.toNat +
      8 * s.status.cmdErr.toNat + 16 * s.status.waiting.toNat ∧
    (s.readReg .ctrl).toNat = s.ctrl.run.toNat + 2 * s.ctrl.testMode.toNat ∧
    (s.readReg .fault).toNat = causeNumber s.fault.cause + s.fault.op.toNat * 2 ^ 8 + s.fault.pc.toNat * 2 ^ 16 +
      s.fault.src.toNat * 2 ^ 20 ∧
    s.readReg .cmd = 0 ∧
    (s.readReg .ftCtl).toNat = trackNumber s.tracker.state + 4 * s.tracker.toggle.toNat ∧
    (s.readReg .boundary).toNat = s.tracker.boundary.toNat ∧ (s.readReg .aggCtl).toNat = s.agg.rmsCold.toNat ∧
    (s.readReg .seqPc).toNat = s.seqPc.toNat ∧ (s.readReg .pcur).toNat = s.channel.pcur.toNat ∧
    (s.readReg .ccur).toNat = s.channel.ccur.toNat ∧ (s.readReg .tariffMode).toNat = s.inputs.tariffMode.toNat ∧
    (s.readReg .adcV).toNat = s.inputs.adcV.toNat ∧ (s.readReg .adcI).toNat = s.inputs.adcI.toNat ∧
    (s.readReg .wcHms).toNat = s.inputs.wcHms.toNat ∧ (s.readReg .wcDays).toNat = s.inputs.wcDays.toNat ∧
    (∀ k, (s.readReg (.vbuf k)).toInt = (s.vbuf k).toInt ∧ (s.readReg (.ibuf k)).toInt = (s.ibuf k).toInt) ∧
    [BusReg.opa, .opb, .res, .rV, .rI, .avail].map s.readReg =
      [s.regs.opa, s.regs.opb, s.regs.res, s.regs.rV, s.regs.rI, s.channel.avail] ∧
    [BusReg.ftPrev, .ftCount, .ftEntry, .ftExit, .ftPeriod, .periodDone].map s.readReg =
      [s.tracker.prev, s.tracker.count, s.tracker.entry, s.tracker.exit, s.tracker.period, s.tracker.periodDone] ∧
    [BusReg.sumV2, .sumI2, .sumP, .count, .seedV, .seedI, .nDone].map s.readReg =
      [s.agg.sumV2, s.agg.sumI2, s.agg.sumP, s.agg.count, s.agg.seedV, s.agg.seedI, s.agg.nDone] ∧
    [BusReg.eCycle, .eAcc, .mcCycle, .mcAcc, .cents].map s.readReg =
      [s.energy.eCycle, s.energy.eAcc, s.bill.mcCycle, s.bill.mcAcc, s.bill.cents] ∧
    [BusReg.rateT1Peak, .rateT1Shoulder, .rateT1Offpeak, .rateT2Flat, .rateT3Flat].map s.readReg =
      [s.rates.t1Peak, s.rates.t1Shoulder, s.rates.t1Offpeak, s.rates.t2Flat, s.rates.t3Flat] ∧
    [BusReg.totPower, .totEnergy, .totCost, .totFreq, .totVrms, .totIrms, .totPf].map s.readReg =
      [s.totals.power, s.totals.energy, s.totals.cost, s.totals.freq, s.totals.vrms, s.totals.irms, s.totals.pf]

/-- 20_memory R67, 10_state R20, R49: a bus read has no side effect at any address, a mapped address reads as its
register, and an unmapped one reads as zero and ignores writes. -/
def Obligations.BusReadsHaveNoSideEffect : Prop :=
  ∀ (s : State) (a : BusAddr) (rest : List Event),
    (s.schedule = .busRead a :: rest →
      step s = .next { s with schedule := rest, busReads := s.busReads ++ [⟨a, s.readBus a⟩] }) ∧
    (∀ row ∈ registerMap, a = row.addr → s.readBus a = s.readReg row.reg) ∧
    (∀ k : BitVec 4, (a.val = 0x40 + k.toNat → s.readBus a = s.readReg (.vbuf k)) ∧
      (a.val = 0x50 + k.toNat → s.readBus a = s.readReg (.ibuf k))) ∧
    (a.val ∈ unmapped → s.readBus a = 0 ∧
      ∀ v, s.schedule = .busWrite a v :: rest → step s = .next { s with schedule := rest })

/-- 10_state R20, 60_exceptions R214: a host write that the register's class forbids is ignored without side effect:
class N at any time, class D in RUN mode, and all of A, D and N while halted. -/
def Obligations.ForbiddenHostWritesAreIgnored : Prop :=
  ∀ (s : State) (a : BusAddr) (v : Word) (rest : List Event) (r : BusReg),
    s.schedule = .busWrite a v :: rest → busDecode a = some r →
    r.hostClass = .n ∨ r.hostClass = .d ∧ (s.ctrl.run = true ∨ s.status.halted = true) ∨
      r.hostClass = .a ∧ s.status.halted = true →
    step s = .next { s with schedule := rest }

/-- 10_state R32, R33, R34, R20, 60_exceptions R227: in both modes, while not halted, a bus write of TARIFF_MODE, ADC_V,
ADC_I, WC_HMS or WC_DAYS is stored at the register's 16, 16, 16, 24 or 16 bits, and nothing else changes. -/
def Obligations.ClassAWritesReadBack : Prop :=
  ∀ (s : State) (v : Word) (rest : List Event), ∀ row ∈ collaboratorMap,
    s.schedule = .busWrite row.addr v :: rest → s.status.halted = false →
    ∃ t, step s = .next t ∧ (t.readBus row.addr).toNat = v.toNat % 2 ^ row.bits ∧
      KeepsAllBut [row.reg] { s with schedule := rest } t

/-- 10_state R20, R31, 60_exceptions R222: in RUN mode a bus write changes no register but the class A ones and, where it
is one of CMD and the machine is not halted, `CMD_ERR`. -/
def Obligations.HostWritesOnlyClassAInRunMode : Prop :=
  ∀ (s : State) (a : BusAddr) (v : Word) (rest : List Event), s.schedule = .busWrite a v :: rest → s.ctrl.run = true →
    ∃ t, step s = .next t ∧
      KeepsAllBut [.ctrl, .tariffMode, .adcV, .adcI, .wcHms, .wcDays, .status] { s with schedule := rest } t ∧
      t.ctrl.run = true ∧
      t.status = { s.status with cmdErr := s.status.cmdErr || decide (a = 0x0C) && !s.status.halted }

/-- 10_state R20, R46: in DIRECT mode, not halted, a host write of a register of class D other than SEQ_PC and FT_CTL is
read back at the register's width (window entries sign extended), and no other register changes. -/
def Obligations.DirectModeWritesReadBack : Prop :=
  ∀ (s : State) (a : BusAddr) (v : Word) (rest : List Event) (r : BusReg),
    s.schedule = .busWrite a v :: rest → s.mem.wf = true → s.ctrl.run = false → s.status.halted = false →
    busDecode a = some r → r.hostClass = .d → r ≠ .seqPc → r ≠ .ftCtl →
    ∃ t, step s = .next t ∧
      t.readBus a = (match r with
        | .pcur | .ccur => pat (v.toNat % 16 : Nat)
        | .boundary | .aggCtl => pat (v.toNat % 2 : Nat)
        | .vbuf _ | .ibuf _ => pat (BitVec.ofNat 16 v.toNat).toInt
        | _ => v) ∧
      ∀ r', r' ≠ r → t.readReg r' = s.readReg r'

/-- 10_state R22, R38: a host write of SEQ_PC above 9, and one of FT_CTL with STATE 3, is ignored; any other takes
effect. (That the whole written word of SEQ_PC counts is the model's choice, log 7.) -/
def Obligations.ReservedValuesAreNotWritten : Prop :=
  ∀ (s : State) (v : Word) (rest : List Event), s.ctrl.run = false → s.status.halted = false →
    (s.schedule = .busWrite 0x0B v :: rest →
      ∃ t, step s = .next t ∧ t.readReg .seqPc = (if v.toNat ≤ 9 then v else s.readReg .seqPc) ∧
        KeepsAllBut [.seqPc] { s with schedule := rest } t) ∧
    (s.schedule = .busWrite 0x18 v :: rest →
      ∃ t, step s = .next t ∧
        t.readReg .ftCtl = (if v.toNat % 4 = 3 then s.readReg .ftCtl else pat (v.toNat % 8 : Nat)) ∧
        KeepsAllBut [.ftCtl] { s with schedule := rest } t)

/-- 10_state R29: RUN is set by a host write of 1 and by none cleared, TEST_MODE follows the write. (That the write's
TEST_MODE bit counts while a CMD POP waits and RUN does not is the model's reading, log 6.) -/
def Obligations.CtrlRunIsSetNeverCleared : Prop :=
  ∀ (s : State) (v : Word) (rest : List Event), s.schedule = .busWrite 0x08 v :: rest → s.status.halted = false →
    ∃ t, step s = .next t ∧
      t.ctrl.testMode = decide (v.toNat / 2 % 2 = 1) ∧
      (s.ctrl.run = true → t.ctrl.run = true) ∧
      (s.ctrl.run = false → t.ctrl.run = (decide (v.toNat % 2 = 1) && !s.status.waiting)) ∧
      KeepsAllBut [.ctrl] { s with schedule := rest } t

/-! ## Rules of the whole machine -/

/-- 10_state R25: HALTED, OVF, TMODE_BAD and CMD_ERR, once set, are cleared by reset only. -/
def Obligations.StickyFlagsAreClearedByResetOnly : Prop :=
  ∀ s t : State, step s = .next t → (∀ u, s.nextMove ≠ .reset u) →
    (s.status.halted = true → t.status.halted = true) ∧ (s.status.ovf = true → t.status.ovf = true) ∧
    (s.status.tmodeBad = true → t.status.tmodeBad = true) ∧ (s.status.cmdErr = true → t.status.cmdErr = true)

/-- 10_state R27: `OVF` feeds back into no computation: two states that differ only in it step to states that differ at
most in it. (A bus read is left out: the data it returns may be `STATUS` itself.) -/
def Obligations.OvfFeedsBackIntoNothing : Prop :=
  ∀ (s t : State) (o : Bool), (∀ a, s.nextMove ≠ .busRead a) → step s = .next t →
    ∃ o', step { s with status.ovf := o } = .next { t with status.ovf := o' }

/-- 60_exceptions R226, 42_frequencytracker R138: an FTSTEP emits exactly one `set_period` event if it sets BOUNDARY, with
the period it installs and FT_RESTART, and none otherwise; no other step emits any. -/
def Obligations.SetPeriodIsEmittedOncePerBoundary : Prop :=
  ∀ s t : State, step s = .next t →
    (RunsFtstep s →
      t.periodEvents = if t.tracker.boundary then s.periodEvents ++ [⟨t.tracker.period, s.params.ftRestart⟩]
        else s.periodEvents) ∧
    (¬ RunsFtstep s → t.periodEvents = s.periodEvents)

/-- From every state that meets the invariant a step answers a next state that meets it: SEQ_PC stays a ROM index (R23),
the window's memory stays canonical and inside the window (R61), FAULT is clear until a fatal condition and then records
it (R213), a sequencer POP is suspended at index 0 only (R201); and the sequencer never finds an unexecutable word (R85). -/
def Obligations.EveryStepKeepsTheInvariant : Prop :=
  ∀ s : State, s.Inv → ∃ t, step s = .next t ∧ t.Inv

/-- The invariant holds right after reset, for every instance and whatever the environment supplies. -/
def Obligations.ResetMeetsTheInvariant : Prop :=
  State.reset.Inv ∧ ∀ (s : State) (u : ResetInputs), (s.afterReset u).Inv

/-- 00_scope R10: no step changes the open parameters. -/
def Obligations.ParametersAreConstants : Prop :=
  ∀ s t : State, step s = .next t → t.params = s.params
end

