-- ==== Sys2Proof/Laws/State.lean ====
section
/-! SUPPORT. One lemma per field per state update, so that no proof unfolds a record update. -/

namespace Sys2Proof.Machine

/-! ### `State.noteOvf` -/

@[simp] theorem State.noteOvf_regs (s : State) (o : Bool) : (s.noteOvf o).regs = s.regs := rfl
@[simp] theorem State.noteOvf_seqPc (s : State) (o : Bool) : (s.noteOvf o).seqPc = s.seqPc := rfl
@[simp] theorem State.noteOvf_status (s : State) (o : Bool) :
    (s.noteOvf o).status =
      { s.status with ovf := s.status.ovf || o } := rfl
@[simp] theorem State.noteOvf_ctrl (s : State) (o : Bool) : (s.noteOvf o).ctrl = s.ctrl := rfl
@[simp] theorem State.noteOvf_fault (s : State) (o : Bool) : (s.noteOvf o).fault = s.fault := rfl
@[simp] theorem State.noteOvf_inputs (s : State) (o : Bool) : (s.noteOvf o).inputs = s.inputs := rfl
@[simp] theorem State.noteOvf_rates (s : State) (o : Bool) : (s.noteOvf o).rates = s.rates := rfl
@[simp] theorem State.noteOvf_channel (s : State) (o : Bool) : (s.noteOvf o).channel = s.channel := rfl
@[simp] theorem State.noteOvf_mem (s : State) (o : Bool) : (s.noteOvf o).mem = s.mem := rfl
@[simp] theorem State.noteOvf_tracker (s : State) (o : Bool) : (s.noteOvf o).tracker = s.tracker := rfl
@[simp] theorem State.noteOvf_agg (s : State) (o : Bool) : (s.noteOvf o).agg = s.agg := rfl
@[simp] theorem State.noteOvf_energy (s : State) (o : Bool) : (s.noteOvf o).energy = s.energy := rfl
@[simp] theorem State.noteOvf_bill (s : State) (o : Bool) : (s.noteOvf o).bill = s.bill := rfl
@[simp] theorem State.noteOvf_totals (s : State) (o : Bool) : (s.noteOvf o).totals = s.totals := rfl
@[simp] theorem State.noteOvf_popLifted (s : State) (o : Bool) : (s.noteOvf o).popLifted = s.popLifted := rfl
@[simp] theorem State.noteOvf_periodEvents (s : State) (o : Bool) : (s.noteOvf o).periodEvents = s.periodEvents := rfl
@[simp] theorem State.noteOvf_busReads (s : State) (o : Bool) : (s.noteOvf o).busReads = s.busReads := rfl
@[simp] theorem State.noteOvf_schedule (s : State) (o : Bool) : (s.noteOvf o).schedule = s.schedule := rfl
@[simp] theorem State.noteOvf_params (s : State) (o : Bool) : (s.noteOvf o).params = s.params := rfl

/-! ### `State.putRes` -/

@[simp] theorem State.putRes_regs (s : State) (w : Word) : (s.putRes w).regs = { s.regs with res := w } := rfl
@[simp] theorem State.putRes_seqPc (s : State) (w : Word) : (s.putRes w).seqPc = s.seqPc := rfl
@[simp] theorem State.putRes_status (s : State) (w : Word) : (s.putRes w).status = s.status := rfl
@[simp] theorem State.putRes_ctrl (s : State) (w : Word) : (s.putRes w).ctrl = s.ctrl := rfl
@[simp] theorem State.putRes_fault (s : State) (w : Word) : (s.putRes w).fault = s.fault := rfl
@[simp] theorem State.putRes_inputs (s : State) (w : Word) : (s.putRes w).inputs = s.inputs := rfl
@[simp] theorem State.putRes_rates (s : State) (w : Word) : (s.putRes w).rates = s.rates := rfl
@[simp] theorem State.putRes_channel (s : State) (w : Word) : (s.putRes w).channel = s.channel := rfl
@[simp] theorem State.putRes_mem (s : State) (w : Word) : (s.putRes w).mem = s.mem := rfl
@[simp] theorem State.putRes_tracker (s : State) (w : Word) : (s.putRes w).tracker = s.tracker := rfl
@[simp] theorem State.putRes_agg (s : State) (w : Word) : (s.putRes w).agg = s.agg := rfl
@[simp] theorem State.putRes_energy (s : State) (w : Word) : (s.putRes w).energy = s.energy := rfl
@[simp] theorem State.putRes_bill (s : State) (w : Word) : (s.putRes w).bill = s.bill := rfl
@[simp] theorem State.putRes_totals (s : State) (w : Word) : (s.putRes w).totals = s.totals := rfl
@[simp] theorem State.putRes_popLifted (s : State) (w : Word) : (s.putRes w).popLifted = s.popLifted := rfl
@[simp] theorem State.putRes_periodEvents (s : State) (w : Word) : (s.putRes w).periodEvents = s.periodEvents := rfl
@[simp] theorem State.putRes_busReads (s : State) (w : Word) : (s.putRes w).busReads = s.busReads := rfl
@[simp] theorem State.putRes_schedule (s : State) (w : Word) : (s.putRes w).schedule = s.schedule := rfl
@[simp] theorem State.putRes_params (s : State) (w : Word) : (s.putRes w).params = s.params := rfl

/-! ### `State.takeFatal` -/

@[simp] theorem State.takeFatal_regs (s : State) (op : BitVec 8) (c : Cause) : (s.takeFatal op c).regs = s.regs := rfl
@[simp] theorem State.takeFatal_seqPc (s : State) (op : BitVec 8) (c : Cause) :
    (s.takeFatal op c).seqPc =
      s.seqPc := rfl
@[simp] theorem State.takeFatal_status (s : State) (op : BitVec 8) (c : Cause) :
    (s.takeFatal op c).status =
      { s.status with halted := true } := rfl
@[simp] theorem State.takeFatal_ctrl (s : State) (op : BitVec 8) (c : Cause) : (s.takeFatal op c).ctrl = s.ctrl := rfl
@[simp] theorem State.takeFatal_fault (s : State) (op : BitVec 8) (c : Cause) :
    (s.takeFatal op c).fault =
      { cause := some c, op := op, pc := s.seqPc, src := s.ctrl.run } := rfl
@[simp] theorem State.takeFatal_inputs (s : State) (op : BitVec 8) (c : Cause) :
    (s.takeFatal op c).inputs =
      s.inputs := rfl
@[simp] theorem State.takeFatal_rates (s : State) (op : BitVec 8) (c : Cause) :
    (s.takeFatal op c).rates =
      s.rates := rfl
@[simp] theorem State.takeFatal_channel (s : State) (op : BitVec 8) (c : Cause) :
    (s.takeFatal op c).channel =
      s.channel := rfl
@[simp] theorem State.takeFatal_mem (s : State) (op : BitVec 8) (c : Cause) : (s.takeFatal op c).mem = s.mem := rfl
@[simp] theorem State.takeFatal_tracker (s : State) (op : BitVec 8) (c : Cause) :
    (s.takeFatal op c).tracker =
      s.tracker := rfl
@[simp] theorem State.takeFatal_agg (s : State) (op : BitVec 8) (c : Cause) : (s.takeFatal op c).agg = s.agg := rfl
@[simp] theorem State.takeFatal_energy (s : State) (op : BitVec 8) (c : Cause) :
    (s.takeFatal op c).energy =
      s.energy := rfl
@[simp] theorem State.takeFatal_bill (s : State) (op : BitVec 8) (c : Cause) : (s.takeFatal op c).bill = s.bill := rfl
@[simp] theorem State.takeFatal_totals (s : State) (op : BitVec 8) (c : Cause) :
    (s.takeFatal op c).totals =
      s.totals := rfl
@[simp] theorem State.takeFatal_popLifted (s : State) (op : BitVec 8) (c : Cause) :
    (s.takeFatal op c).popLifted =
      s.popLifted := rfl
@[simp] theorem State.takeFatal_periodEvents (s : State) (op : BitVec 8) (c : Cause) :
    (s.takeFatal op c).periodEvents =
      s.periodEvents := rfl
@[simp] theorem State.takeFatal_busReads (s : State) (op : BitVec 8) (c : Cause) :
    (s.takeFatal op c).busReads =
      s.busReads := rfl
@[simp] theorem State.takeFatal_schedule (s : State) (op : BitVec 8) (c : Cause) :
    (s.takeFatal op c).schedule =
      s.schedule := rfl
@[simp] theorem State.takeFatal_params (s : State) (op : BitVec 8) (c : Cause) :
    (s.takeFatal op c).params =
      s.params := rfl

/-! ### `State.cmdRefused` -/

@[simp] theorem State.cmdRefused_regs (s : State) : s.cmdRefused.regs = s.regs := rfl
@[simp] theorem State.cmdRefused_seqPc (s : State) : s.cmdRefused.seqPc = s.seqPc := rfl
@[simp] theorem State.cmdRefused_status (s : State) : s.cmdRefused.status = { s.status with cmdErr := true } := rfl
@[simp] theorem State.cmdRefused_ctrl (s : State) : s.cmdRefused.ctrl = s.ctrl := rfl
@[simp] theorem State.cmdRefused_fault (s : State) : s.cmdRefused.fault = s.fault := rfl
@[simp] theorem State.cmdRefused_inputs (s : State) : s.cmdRefused.inputs = s.inputs := rfl
@[simp] theorem State.cmdRefused_rates (s : State) : s.cmdRefused.rates = s.rates := rfl
@[simp] theorem State.cmdRefused_channel (s : State) : s.cmdRefused.channel = s.channel := rfl
@[simp] theorem State.cmdRefused_mem (s : State) : s.cmdRefused.mem = s.mem := rfl
@[simp] theorem State.cmdRefused_tracker (s : State) : s.cmdRefused.tracker = s.tracker := rfl
@[simp] theorem State.cmdRefused_agg (s : State) : s.cmdRefused.agg = s.agg := rfl
@[simp] theorem State.cmdRefused_energy (s : State) : s.cmdRefused.energy = s.energy := rfl
@[simp] theorem State.cmdRefused_bill (s : State) : s.cmdRefused.bill = s.bill := rfl
@[simp] theorem State.cmdRefused_totals (s : State) : s.cmdRefused.totals = s.totals := rfl
@[simp] theorem State.cmdRefused_popLifted (s : State) : s.cmdRefused.popLifted = s.popLifted := rfl
@[simp] theorem State.cmdRefused_periodEvents (s : State) : s.cmdRefused.periodEvents = s.periodEvents := rfl
@[simp] theorem State.cmdRefused_busReads (s : State) : s.cmdRefused.busReads = s.busReads := rfl
@[simp] theorem State.cmdRefused_schedule (s : State) : s.cmdRefused.schedule = s.schedule := rfl
@[simp] theorem State.cmdRefused_params (s : State) : s.cmdRefused.params = s.params := rfl

/-! ### `State.noteMode` -/

@[simp] theorem State.noteMode_regs (s : State) (bad : Bool) : (s.noteMode bad).regs = s.regs := rfl
@[simp] theorem State.noteMode_seqPc (s : State) (bad : Bool) : (s.noteMode bad).seqPc = s.seqPc := rfl
@[simp] theorem State.noteMode_status (s : State) (bad : Bool) :
    (s.noteMode bad).status =
      { s.status with tmodeBad := s.status.tmodeBad || bad } := rfl
@[simp] theorem State.noteMode_ctrl (s : State) (bad : Bool) : (s.noteMode bad).ctrl = s.ctrl := rfl
@[simp] theorem State.noteMode_fault (s : State) (bad : Bool) : (s.noteMode bad).fault = s.fault := rfl
@[simp] theorem State.noteMode_inputs (s : State) (bad : Bool) : (s.noteMode bad).inputs = s.inputs := rfl
@[simp] theorem State.noteMode_rates (s : State) (bad : Bool) : (s.noteMode bad).rates = s.rates := rfl
@[simp] theorem State.noteMode_channel (s : State) (bad : Bool) : (s.noteMode bad).channel = s.channel := rfl
@[simp] theorem State.noteMode_mem (s : State) (bad : Bool) : (s.noteMode bad).mem = s.mem := rfl
@[simp] theorem State.noteMode_tracker (s : State) (bad : Bool) : (s.noteMode bad).tracker = s.tracker := rfl
@[simp] theorem State.noteMode_agg (s : State) (bad : Bool) : (s.noteMode bad).agg = s.agg := rfl
@[simp] theorem State.noteMode_energy (s : State) (bad : Bool) : (s.noteMode bad).energy = s.energy := rfl
@[simp] theorem State.noteMode_bill (s : State) (bad : Bool) : (s.noteMode bad).bill = s.bill := rfl
@[simp] theorem State.noteMode_totals (s : State) (bad : Bool) : (s.noteMode bad).totals = s.totals := rfl
@[simp] theorem State.noteMode_popLifted (s : State) (bad : Bool) : (s.noteMode bad).popLifted = s.popLifted := rfl
@[simp] theorem State.noteMode_periodEvents (s : State) (bad : Bool) :
    (s.noteMode bad).periodEvents =
      s.periodEvents := rfl
@[simp] theorem State.noteMode_busReads (s : State) (bad : Bool) : (s.noteMode bad).busReads = s.busReads := rfl
@[simp] theorem State.noteMode_schedule (s : State) (bad : Bool) : (s.noteMode bad).schedule = s.schedule := rfl
@[simp] theorem State.noteMode_params (s : State) (bad : Bool) : (s.noteMode bad).params = s.params := rfl

/-! ### `State.blockPop` -/

@[simp] theorem State.blockPop_regs (s : State) : s.blockPop.regs = s.regs := rfl
@[simp] theorem State.blockPop_seqPc (s : State) : s.blockPop.seqPc = s.seqPc := rfl
@[simp] theorem State.blockPop_status (s : State) : s.blockPop.status = { s.status with waiting := true } := rfl
@[simp] theorem State.blockPop_ctrl (s : State) : s.blockPop.ctrl = s.ctrl := rfl
@[simp] theorem State.blockPop_fault (s : State) : s.blockPop.fault = s.fault := rfl
@[simp] theorem State.blockPop_inputs (s : State) : s.blockPop.inputs = s.inputs := rfl
@[simp] theorem State.blockPop_rates (s : State) : s.blockPop.rates = s.rates := rfl
@[simp] theorem State.blockPop_channel (s : State) : s.blockPop.channel = s.channel := rfl
@[simp] theorem State.blockPop_mem (s : State) : s.blockPop.mem = s.mem := rfl
@[simp] theorem State.blockPop_tracker (s : State) : s.blockPop.tracker = s.tracker := rfl
@[simp] theorem State.blockPop_agg (s : State) : s.blockPop.agg = s.agg := rfl
@[simp] theorem State.blockPop_energy (s : State) : s.blockPop.energy = s.energy := rfl
@[simp] theorem State.blockPop_bill (s : State) : s.blockPop.bill = s.bill := rfl
@[simp] theorem State.blockPop_totals (s : State) : s.blockPop.totals = s.totals := rfl
@[simp] theorem State.blockPop_popLifted (s : State) : s.blockPop.popLifted = false := rfl
@[simp] theorem State.blockPop_periodEvents (s : State) : s.blockPop.periodEvents = s.periodEvents := rfl
@[simp] theorem State.blockPop_busReads (s : State) : s.blockPop.busReads = s.busReads := rfl
@[simp] theorem State.blockPop_schedule (s : State) : s.blockPop.schedule = s.schedule := rfl
@[simp] theorem State.blockPop_params (s : State) : s.blockPop.params = s.params := rfl

/-! ### `State.rememberSample` -/

@[simp] theorem State.rememberSample_regs (s : State) (x : Word) : (s.rememberSample x).regs = s.regs := rfl
@[simp] theorem State.rememberSample_seqPc (s : State) (x : Word) : (s.rememberSample x).seqPc = s.seqPc := rfl
@[simp] theorem State.rememberSample_status (s : State) (x : Word) : (s.rememberSample x).status = s.status := rfl
@[simp] theorem State.rememberSample_ctrl (s : State) (x : Word) : (s.rememberSample x).ctrl = s.ctrl := rfl
@[simp] theorem State.rememberSample_fault (s : State) (x : Word) : (s.rememberSample x).fault = s.fault := rfl
@[simp] theorem State.rememberSample_inputs (s : State) (x : Word) : (s.rememberSample x).inputs = s.inputs := rfl
@[simp] theorem State.rememberSample_rates (s : State) (x : Word) : (s.rememberSample x).rates = s.rates := rfl
@[simp] theorem State.rememberSample_channel (s : State) (x : Word) : (s.rememberSample x).channel = s.channel := rfl
@[simp] theorem State.rememberSample_mem (s : State) (x : Word) : (s.rememberSample x).mem = s.mem := rfl
@[simp] theorem State.rememberSample_tracker (s : State) (x : Word) :
    (s.rememberSample x).tracker =
      { s.tracker with prev := x } := rfl
@[simp] theorem State.rememberSample_agg (s : State) (x : Word) : (s.rememberSample x).agg = s.agg := rfl
@[simp] theorem State.rememberSample_energy (s : State) (x : Word) : (s.rememberSample x).energy = s.energy := rfl
@[simp] theorem State.rememberSample_bill (s : State) (x : Word) : (s.rememberSample x).bill = s.bill := rfl
@[simp] theorem State.rememberSample_totals (s : State) (x : Word) : (s.rememberSample x).totals = s.totals := rfl
@[simp] theorem State.rememberSample_popLifted (s : State) (x : Word) :
    (s.rememberSample x).popLifted =
      s.popLifted := rfl
@[simp] theorem State.rememberSample_periodEvents (s : State) (x : Word) :
    (s.rememberSample x).periodEvents =
      s.periodEvents := rfl
@[simp] theorem State.rememberSample_busReads (s : State) (x : Word) :
    (s.rememberSample x).busReads =
      s.busReads := rfl
@[simp] theorem State.rememberSample_schedule (s : State) (x : Word) :
    (s.rememberSample x).schedule =
      s.schedule := rfl
@[simp] theorem State.rememberSample_params (s : State) (x : Word) : (s.rememberSample x).params = s.params := rfl

/-! ### `State.beginStep` -/

@[simp] theorem State.beginStep_regs (s : State) : s.beginStep.regs = s.regs := rfl
@[simp] theorem State.beginStep_seqPc (s : State) : s.beginStep.seqPc = s.seqPc := rfl
@[simp] theorem State.beginStep_status (s : State) : s.beginStep.status = s.status := rfl
@[simp] theorem State.beginStep_ctrl (s : State) : s.beginStep.ctrl = s.ctrl := rfl
@[simp] theorem State.beginStep_fault (s : State) : s.beginStep.fault = s.fault := rfl
@[simp] theorem State.beginStep_inputs (s : State) : s.beginStep.inputs = s.inputs := rfl
@[simp] theorem State.beginStep_rates (s : State) : s.beginStep.rates = s.rates := rfl
@[simp] theorem State.beginStep_channel (s : State) : s.beginStep.channel = s.channel := rfl
@[simp] theorem State.beginStep_mem (s : State) : s.beginStep.mem = s.mem := rfl
@[simp] theorem State.beginStep_tracker (s : State) :
    s.beginStep.tracker =
      { s.tracker with boundary := false, periodDone := s.tracker.period } := rfl
@[simp] theorem State.beginStep_agg (s : State) : s.beginStep.agg = s.agg := rfl
@[simp] theorem State.beginStep_energy (s : State) : s.beginStep.energy = s.energy := rfl
@[simp] theorem State.beginStep_bill (s : State) : s.beginStep.bill = s.bill := rfl
@[simp] theorem State.beginStep_totals (s : State) : s.beginStep.totals = s.totals := rfl
@[simp] theorem State.beginStep_popLifted (s : State) : s.beginStep.popLifted = s.popLifted := rfl
@[simp] theorem State.beginStep_periodEvents (s : State) : s.beginStep.periodEvents = s.periodEvents := rfl
@[simp] theorem State.beginStep_busReads (s : State) : s.beginStep.busReads = s.busReads := rfl
@[simp] theorem State.beginStep_schedule (s : State) : s.beginStep.schedule = s.schedule := rfl
@[simp] theorem State.beginStep_params (s : State) : s.beginStep.params = s.params := rfl

/-! ### `State.lockOn` -/

@[simp] theorem State.lockOn_regs (s : State) (prev x : Word) : (s.lockOn prev x).regs = s.regs := rfl
@[simp] theorem State.lockOn_seqPc (s : State) (prev x : Word) : (s.lockOn prev x).seqPc = s.seqPc := rfl
@[simp] theorem State.lockOn_status (s : State) (prev x : Word) : (s.lockOn prev x).status = s.status := rfl
@[simp] theorem State.lockOn_ctrl (s : State) (prev x : Word) : (s.lockOn prev x).ctrl = s.ctrl := rfl
@[simp] theorem State.lockOn_fault (s : State) (prev x : Word) : (s.lockOn prev x).fault = s.fault := rfl
@[simp] theorem State.lockOn_inputs (s : State) (prev x : Word) : (s.lockOn prev x).inputs = s.inputs := rfl
@[simp] theorem State.lockOn_rates (s : State) (prev x : Word) : (s.lockOn prev x).rates = s.rates := rfl
@[simp] theorem State.lockOn_channel (s : State) (prev x : Word) : (s.lockOn prev x).channel = s.channel := rfl
@[simp] theorem State.lockOn_mem (s : State) (prev x : Word) : (s.lockOn prev x).mem = s.mem := rfl
@[simp] theorem State.lockOn_tracker (s : State) (prev x : Word) :
    (s.lockOn prev x).tracker =
      { s.tracker with entry := crossingFraction x prev, count := 0, toggle := false, state := .locked } := rfl
@[simp] theorem State.lockOn_agg (s : State) (prev x : Word) : (s.lockOn prev x).agg = s.agg := rfl
@[simp] theorem State.lockOn_energy (s : State) (prev x : Word) : (s.lockOn prev x).energy = s.energy := rfl
@[simp] theorem State.lockOn_bill (s : State) (prev x : Word) : (s.lockOn prev x).bill = s.bill := rfl
@[simp] theorem State.lockOn_totals (s : State) (prev x : Word) : (s.lockOn prev x).totals = s.totals := rfl
@[simp] theorem State.lockOn_popLifted (s : State) (prev x : Word) : (s.lockOn prev x).popLifted = s.popLifted := rfl
@[simp] theorem State.lockOn_periodEvents (s : State) (prev x : Word) :
    (s.lockOn prev x).periodEvents =
      s.periodEvents := rfl
@[simp] theorem State.lockOn_busReads (s : State) (prev x : Word) : (s.lockOn prev x).busReads = s.busReads := rfl
@[simp] theorem State.lockOn_schedule (s : State) (prev x : Word) : (s.lockOn prev x).schedule = s.schedule := rfl
@[simp] theorem State.lockOn_params (s : State) (prev x : Word) : (s.lockOn prev x).params = s.params := rfl

/-! ### `State.enterCycle` -/

@[simp] theorem State.enterCycle_regs (s : State) (f : Word) : (s.enterCycle f).regs = s.regs := rfl
@[simp] theorem State.enterCycle_seqPc (s : State) (f : Word) : (s.enterCycle f).seqPc = s.seqPc := rfl
@[simp] theorem State.enterCycle_status (s : State) (f : Word) : (s.enterCycle f).status = s.status := rfl
@[simp] theorem State.enterCycle_ctrl (s : State) (f : Word) : (s.enterCycle f).ctrl = s.ctrl := rfl
@[simp] theorem State.enterCycle_fault (s : State) (f : Word) : (s.enterCycle f).fault = s.fault := rfl
@[simp] theorem State.enterCycle_inputs (s : State) (f : Word) : (s.enterCycle f).inputs = s.inputs := rfl
@[simp] theorem State.enterCycle_rates (s : State) (f : Word) : (s.enterCycle f).rates = s.rates := rfl
@[simp] theorem State.enterCycle_channel (s : State) (f : Word) : (s.enterCycle f).channel = s.channel := rfl
@[simp] theorem State.enterCycle_mem (s : State) (f : Word) : (s.enterCycle f).mem = s.mem := rfl
@[simp] theorem State.enterCycle_tracker (s : State) (f : Word) :
    (s.enterCycle f).tracker =
      { s.tracker with entry := f, count := 0, toggle := true } := rfl
@[simp] theorem State.enterCycle_agg (s : State) (f : Word) : (s.enterCycle f).agg = s.agg := rfl
@[simp] theorem State.enterCycle_energy (s : State) (f : Word) : (s.enterCycle f).energy = s.energy := rfl
@[simp] theorem State.enterCycle_bill (s : State) (f : Word) : (s.enterCycle f).bill = s.bill := rfl
@[simp] theorem State.enterCycle_totals (s : State) (f : Word) : (s.enterCycle f).totals = s.totals := rfl
@[simp] theorem State.enterCycle_popLifted (s : State) (f : Word) : (s.enterCycle f).popLifted = s.popLifted := rfl
@[simp] theorem State.enterCycle_periodEvents (s : State) (f : Word) :
    (s.enterCycle f).periodEvents =
      s.periodEvents := rfl
@[simp] theorem State.enterCycle_busReads (s : State) (f : Word) : (s.enterCycle f).busReads = s.busReads := rfl
@[simp] theorem State.enterCycle_schedule (s : State) (f : Word) : (s.enterCycle f).schedule = s.schedule := rfl
@[simp] theorem State.enterCycle_params (s : State) (f : Word) : (s.enterCycle f).params = s.params := rfl

/-! ### `State.reportBoundary` -/

@[simp] theorem State.reportBoundary_regs (s : State) (new : Word) : (s.reportBoundary new).regs = s.regs := rfl
@[simp] theorem State.reportBoundary_seqPc (s : State) (new : Word) : (s.reportBoundary new).seqPc = s.seqPc := rfl
@[simp] theorem State.reportBoundary_status (s : State) (new : Word) : (s.reportBoundary new).status = s.status := rfl
@[simp] theorem State.reportBoundary_ctrl (s : State) (new : Word) : (s.reportBoundary new).ctrl = s.ctrl := rfl
@[simp] theorem State.reportBoundary_fault (s : State) (new : Word) : (s.reportBoundary new).fault = s.fault := rfl
@[simp] theorem State.reportBoundary_inputs (s : State) (new : Word) : (s.reportBoundary new).inputs = s.inputs := rfl
@[simp] theorem State.reportBoundary_rates (s : State) (new : Word) : (s.reportBoundary new).rates = s.rates := rfl
@[simp] theorem State.reportBoundary_channel (s : State) (new : Word) :
    (s.reportBoundary new).channel =
      s.channel := rfl
@[simp] theorem State.reportBoundary_mem (s : State) (new : Word) : (s.reportBoundary new).mem = s.mem := rfl
@[simp] theorem State.reportBoundary_tracker (s : State) (new : Word) :
    (s.reportBoundary new).tracker =
      { s.tracker with period := new, count := 0, toggle := false, boundary := true } := rfl
@[simp] theorem State.reportBoundary_agg (s : State) (new : Word) : (s.reportBoundary new).agg = s.agg := rfl
@[simp] theorem State.reportBoundary_energy (s : State) (new : Word) : (s.reportBoundary new).energy = s.energy := rfl
@[simp] theorem State.reportBoundary_bill (s : State) (new : Word) : (s.reportBoundary new).bill = s.bill := rfl
@[simp] theorem State.reportBoundary_totals (s : State) (new : Word) :
    (s.reportBoundary new).totals =
      { s.totals with freq := wrap32 ((nsPerSecond / freqDivisor new : Nat) : Int) } := rfl
@[simp] theorem State.reportBoundary_popLifted (s : State) (new : Word) :
    (s.reportBoundary new).popLifted =
      s.popLifted := rfl
@[simp] theorem State.reportBoundary_periodEvents (s : State) (new : Word) :
    (s.reportBoundary new).periodEvents =
      s.periodEvents ++ [⟨new, s.params.ftRestart⟩] := rfl
@[simp] theorem State.reportBoundary_busReads (s : State) (new : Word) :
    (s.reportBoundary new).busReads =
      s.busReads := rfl
@[simp] theorem State.reportBoundary_schedule (s : State) (new : Word) :
    (s.reportBoundary new).schedule =
      s.schedule := rfl
@[simp] theorem State.reportBoundary_params (s : State) (new : Word) : (s.reportBoundary new).params = s.params := rfl

/-! ### `State.publishVrms` -/

@[simp] theorem State.publishVrms_regs (s : State) (root : Word) : (s.publishVrms root).regs = s.regs := rfl
@[simp] theorem State.publishVrms_seqPc (s : State) (root : Word) : (s.publishVrms root).seqPc = s.seqPc := rfl
@[simp] theorem State.publishVrms_status (s : State) (root : Word) :
    (s.publishVrms root).status =
      { s.status with ovf := s.status.ovf || (muluQ root ten).ovf } := rfl
@[simp] theorem State.publishVrms_ctrl (s : State) (root : Word) : (s.publishVrms root).ctrl = s.ctrl := rfl
@[simp] theorem State.publishVrms_fault (s : State) (root : Word) : (s.publishVrms root).fault = s.fault := rfl
@[simp] theorem State.publishVrms_inputs (s : State) (root : Word) : (s.publishVrms root).inputs = s.inputs := rfl
@[simp] theorem State.publishVrms_rates (s : State) (root : Word) : (s.publishVrms root).rates = s.rates := rfl
@[simp] theorem State.publishVrms_channel (s : State) (root : Word) : (s.publishVrms root).channel = s.channel := rfl
@[simp] theorem State.publishVrms_mem (s : State) (root : Word) : (s.publishVrms root).mem = s.mem := rfl
@[simp] theorem State.publishVrms_tracker (s : State) (root : Word) : (s.publishVrms root).tracker = s.tracker := rfl
@[simp] theorem State.publishVrms_agg (s : State) (root : Word) :
    (s.publishVrms root).agg =
      { s.agg with seedV := root } := rfl
@[simp] theorem State.publishVrms_energy (s : State) (root : Word) : (s.publishVrms root).energy = s.energy := rfl
@[simp] theorem State.publishVrms_bill (s : State) (root : Word) : (s.publishVrms root).bill = s.bill := rfl
@[simp] theorem State.publishVrms_totals (s : State) (root : Word) :
    (s.publishVrms root).totals =
      { s.totals with vrms := (muluQ root ten).val } := rfl
@[simp] theorem State.publishVrms_popLifted (s : State) (root : Word) :
    (s.publishVrms root).popLifted =
      s.popLifted := rfl
@[simp] theorem State.publishVrms_periodEvents (s : State) (root : Word) :
    (s.publishVrms root).periodEvents =
      s.periodEvents := rfl
@[simp] theorem State.publishVrms_busReads (s : State) (root : Word) :
    (s.publishVrms root).busReads =
      s.busReads := rfl
@[simp] theorem State.publishVrms_schedule (s : State) (root : Word) :
    (s.publishVrms root).schedule =
      s.schedule := rfl
@[simp] theorem State.publishVrms_params (s : State) (root : Word) : (s.publishVrms root).params = s.params := rfl

/-! ### `State.publishIrms` -/

@[simp] theorem State.publishIrms_regs (s : State) (root : Word) : (s.publishIrms root).regs = s.regs := rfl
@[simp] theorem State.publishIrms_seqPc (s : State) (root : Word) : (s.publishIrms root).seqPc = s.seqPc := rfl
@[simp] theorem State.publishIrms_status (s : State) (root : Word) :
    (s.publishIrms root).status =
      { s.status with ovf := s.status.ovf || (divuQ root ten).ovf } := rfl
@[simp] theorem State.publishIrms_ctrl (s : State) (root : Word) : (s.publishIrms root).ctrl = s.ctrl := rfl
@[simp] theorem State.publishIrms_fault (s : State) (root : Word) : (s.publishIrms root).fault = s.fault := rfl
@[simp] theorem State.publishIrms_inputs (s : State) (root : Word) : (s.publishIrms root).inputs = s.inputs := rfl
@[simp] theorem State.publishIrms_rates (s : State) (root : Word) : (s.publishIrms root).rates = s.rates := rfl
@[simp] theorem State.publishIrms_channel (s : State) (root : Word) : (s.publishIrms root).channel = s.channel := rfl
@[simp] theorem State.publishIrms_mem (s : State) (root : Word) : (s.publishIrms root).mem = s.mem := rfl
@[simp] theorem State.publishIrms_tracker (s : State) (root : Word) : (s.publishIrms root).tracker = s.tracker := rfl
@[simp] theorem State.publishIrms_agg (s : State) (root : Word) :
    (s.publishIrms root).agg =
      { s.agg with seedI := root } := rfl
@[simp] theorem State.publishIrms_energy (s : State) (root : Word) : (s.publishIrms root).energy = s.energy := rfl
@[simp] theorem State.publishIrms_bill (s : State) (root : Word) : (s.publishIrms root).bill = s.bill := rfl
@[simp] theorem State.publishIrms_totals (s : State) (root : Word) :
    (s.publishIrms root).totals =
      { s.totals with irms := (divuQ root ten).val } := rfl
@[simp] theorem State.publishIrms_popLifted (s : State) (root : Word) :
    (s.publishIrms root).popLifted =
      s.popLifted := rfl
@[simp] theorem State.publishIrms_periodEvents (s : State) (root : Word) :
    (s.publishIrms root).periodEvents =
      s.periodEvents := rfl
@[simp] theorem State.publishIrms_busReads (s : State) (root : Word) :
    (s.publishIrms root).busReads =
      s.busReads := rfl
@[simp] theorem State.publishIrms_schedule (s : State) (root : Word) :
    (s.publishIrms root).schedule =
      s.schedule := rfl
@[simp] theorem State.publishIrms_params (s : State) (root : Word) : (s.publishIrms root).params = s.params := rfl

/-! ### `State.clearCycle` -/

@[simp] theorem State.clearCycle_regs (s : State) : s.clearCycle.regs = s.regs := rfl
@[simp] theorem State.clearCycle_seqPc (s : State) : s.clearCycle.seqPc = s.seqPc := rfl
@[simp] theorem State.clearCycle_status (s : State) : s.clearCycle.status = s.status := rfl
@[simp] theorem State.clearCycle_ctrl (s : State) : s.clearCycle.ctrl = s.ctrl := rfl
@[simp] theorem State.clearCycle_fault (s : State) : s.clearCycle.fault = s.fault := rfl
@[simp] theorem State.clearCycle_inputs (s : State) : s.clearCycle.inputs = s.inputs := rfl
@[simp] theorem State.clearCycle_rates (s : State) : s.clearCycle.rates = s.rates := rfl
@[simp] theorem State.clearCycle_channel (s : State) : s.clearCycle.channel = s.channel := rfl
@[simp] theorem State.clearCycle_mem (s : State) : s.clearCycle.mem = s.mem := rfl
@[simp] theorem State.clearCycle_tracker (s : State) : s.clearCycle.tracker = s.tracker := rfl
@[simp] theorem State.clearCycle_agg (s : State) :
    s.clearCycle.agg =
      { s.agg with sumV2 := 0, sumI2 := 0, count := 0, rmsCold := false } := rfl
@[simp] theorem State.clearCycle_energy (s : State) : s.clearCycle.energy = s.energy := rfl
@[simp] theorem State.clearCycle_bill (s : State) : s.clearCycle.bill = s.bill := rfl
@[simp] theorem State.clearCycle_totals (s : State) : s.clearCycle.totals = s.totals := rfl
@[simp] theorem State.clearCycle_popLifted (s : State) : s.clearCycle.popLifted = s.popLifted := rfl
@[simp] theorem State.clearCycle_periodEvents (s : State) : s.clearCycle.periodEvents = s.periodEvents := rfl
@[simp] theorem State.clearCycle_busReads (s : State) : s.clearCycle.busReads = s.busReads := rfl
@[simp] theorem State.clearCycle_schedule (s : State) : s.clearCycle.schedule = s.schedule := rfl
@[simp] theorem State.clearCycle_params (s : State) : s.clearCycle.params = s.params := rfl

/-! ### `State.busReadMove` -/

@[simp] theorem State.busReadMove_regs (s : State) (a : BusAddr) : (s.busReadMove a).regs = s.regs := rfl
@[simp] theorem State.busReadMove_seqPc (s : State) (a : BusAddr) : (s.busReadMove a).seqPc = s.seqPc := rfl
@[simp] theorem State.busReadMove_status (s : State) (a : BusAddr) : (s.busReadMove a).status = s.status := rfl
@[simp] theorem State.busReadMove_ctrl (s : State) (a : BusAddr) : (s.busReadMove a).ctrl = s.ctrl := rfl
@[simp] theorem State.busReadMove_fault (s : State) (a : BusAddr) : (s.busReadMove a).fault = s.fault := rfl
@[simp] theorem State.busReadMove_inputs (s : State) (a : BusAddr) : (s.busReadMove a).inputs = s.inputs := rfl
@[simp] theorem State.busReadMove_rates (s : State) (a : BusAddr) : (s.busReadMove a).rates = s.rates := rfl
@[simp] theorem State.busReadMove_channel (s : State) (a : BusAddr) : (s.busReadMove a).channel = s.channel := rfl
@[simp] theorem State.busReadMove_mem (s : State) (a : BusAddr) : (s.busReadMove a).mem = s.mem := rfl
@[simp] theorem State.busReadMove_tracker (s : State) (a : BusAddr) : (s.busReadMove a).tracker = s.tracker := rfl
@[simp] theorem State.busReadMove_agg (s : State) (a : BusAddr) : (s.busReadMove a).agg = s.agg := rfl
@[simp] theorem State.busReadMove_energy (s : State) (a : BusAddr) : (s.busReadMove a).energy = s.energy := rfl
@[simp] theorem State.busReadMove_bill (s : State) (a : BusAddr) : (s.busReadMove a).bill = s.bill := rfl
@[simp] theorem State.busReadMove_totals (s : State) (a : BusAddr) : (s.busReadMove a).totals = s.totals := rfl
@[simp] theorem State.busReadMove_popLifted (s : State) (a : BusAddr) :
    (s.busReadMove a).popLifted =
      s.popLifted := rfl
@[simp] theorem State.busReadMove_periodEvents (s : State) (a : BusAddr) :
    (s.busReadMove a).periodEvents =
      s.periodEvents := rfl
@[simp] theorem State.busReadMove_busReads (s : State) (a : BusAddr) :
    (s.busReadMove a).busReads =
      s.busReads ++ [⟨a, s.readBus a⟩] := rfl
@[simp] theorem State.busReadMove_schedule (s : State) (a : BusAddr) : (s.busReadMove a).schedule = s.schedule := rfl
@[simp] theorem State.busReadMove_params (s : State) (a : BusAddr) : (s.busReadMove a).params = s.params := rfl

/-! ### `State.advance` -/

@[simp] theorem State.advance_regs (s : State) : s.advance.regs = s.regs := by unfold State.advance; split <;> rfl
@[simp] theorem State.advance_seqPc (s : State) : s.advance.seqPc = if s.ctrl.run then s.seqPc + 1 else s.seqPc := by
  unfold State.advance; split <;> simp_all
@[simp] theorem State.advance_status (s : State) : s.advance.status = s.status := by unfold State.advance; split <;> rfl
@[simp] theorem State.advance_ctrl (s : State) : s.advance.ctrl = s.ctrl := by unfold State.advance; split <;> rfl
@[simp] theorem State.advance_fault (s : State) : s.advance.fault = s.fault := by unfold State.advance; split <;> rfl
@[simp] theorem State.advance_inputs (s : State) : s.advance.inputs = s.inputs := by unfold State.advance; split <;> rfl
@[simp] theorem State.advance_rates (s : State) : s.advance.rates = s.rates := by unfold State.advance; split <;> rfl
@[simp] theorem State.advance_channel (s : State) : s.advance.channel = s.channel := by unfold State.advance; split <;> rfl
@[simp] theorem State.advance_mem (s : State) : s.advance.mem = s.mem := by unfold State.advance; split <;> rfl
@[simp] theorem State.advance_tracker (s : State) : s.advance.tracker = s.tracker := by unfold State.advance; split <;> rfl
@[simp] theorem State.advance_agg (s : State) : s.advance.agg = s.agg := by unfold State.advance; split <;> rfl
@[simp] theorem State.advance_energy (s : State) : s.advance.energy = s.energy := by unfold State.advance; split <;> rfl
@[simp] theorem State.advance_bill (s : State) : s.advance.bill = s.bill := by unfold State.advance; split <;> rfl
@[simp] theorem State.advance_totals (s : State) : s.advance.totals = s.totals := by unfold State.advance; split <;> rfl
@[simp] theorem State.advance_popLifted (s : State) : s.advance.popLifted = s.popLifted := by unfold State.advance; split <;> rfl
@[simp] theorem State.advance_periodEvents (s : State) : s.advance.periodEvents = s.periodEvents := by unfold State.advance; split <;> rfl
@[simp] theorem State.advance_busReads (s : State) : s.advance.busReads = s.busReads := by unfold State.advance; split <;> rfl
@[simp] theorem State.advance_schedule (s : State) : s.advance.schedule = s.schedule := by unfold State.advance; split <;> rfl
@[simp] theorem State.advance_params (s : State) : s.advance.params = s.params := by unfold State.advance; split <;> rfl

end Sys2Proof.Machine
end

