-- ==== Sys2Proof/Laws/Envelope.lean ====
section
/-! SUPPORT. What the common envelope, the consumer's move, a bus write and a step can do, said once. -/

namespace Sys2Proof.Machine

/-! ### The end of an operation -/

@[simp] theorem Effect.finish_done (op : BitVec 8) (s : State) : (Effect.done s).finish op = s.advance := rfl
@[simp] theorem Effect.finish_blocked (op : BitVec 8) (s : State) : (Effect.blocked s).finish op = s := rfl
@[simp] theorem Effect.finish_fatal (op : BitVec 8) (c : Cause) (s : State) :
    (Effect.fatal c s).finish op = s.takeFatal op c := rfl

@[simp] theorem Calc.andThen_value (r : Flagged) (s : State) (k : Word → State → Effect) :
    (Calc.value r).andThen s k = k r.val (s.noteOvf r.ovf) := rfl
@[simp] theorem Calc.andThen_fatal (c : Cause) (o : Bool) (s : State) (k : Word → State → Effect) :
    (Calc.fatal c o).andThen s k = .fatal c (s.noteOvf o) := rfl

theorem operate_running (i : Instr) (body : State → Effect) {s : State} (h : s.status.halted = false) :
    operate i body s = .next ((body s).finish i.opcode) := by simp [operate, h]

theorem operate_halted (i : Instr) (body : State → Effect) {s : State} (h : s.status.halted = true) :
    operate i body s = .next s := by simp [operate, h]

/-- All an enveloped operation can do: nothing while halted, else its body's end. -/
theorem operate_cases {i : Instr} {body : State → Effect} {s t : State} (h : operate i body s = .next t) :
    (s.status.halted = true ∧ t = s) ∨ (s.status.halted = false ∧ t = (body s).finish i.opcode) := by
  by_cases hh : s.status.halted = true
  · rw [operate_halted _ _ hh] at h; cases h; exact .inl ⟨hh, rfl⟩
  · rw [operate_running _ _ (by simpa using hh)] at h; cases h; exact .inr ⟨by simpa using hh, rfl⟩

theorem transfer_halted (f : State → BitVec 4) {s : State} (h : s.status.halted = true) :
    transfer f s = .next s := by simp [transfer, h]

theorem transfer_running (f : State → BitVec 4) {s : State} (h : s.status.halted = false) (hr : s.ctrl.run = true) :
    transfer f s = .next { s with seqPc := f s } := by simp [transfer, h, hr]

theorem transfer_direct (f : State → BitVec 4) {s : State} (h : s.status.halted = false) (hr : s.ctrl.run = false) :
    transfer f s = .next s.cmdRefused := by simp [transfer, h, hr]

/-- Nothing executes while halted (R197 (1)). -/
theorem exec_halted (i : Instr) {s : State} (h : s.status.halted = true) : exec i s = .next s := by
  cases i <;>
    simp [exec, execNop, execToq16, execMul, execMulu, execDiv, execDivu, execSqrt, execPush, execPop, execFtstep,
      execAcc, execFinp, execFinrms, execFine, execBill, execFinpf, execBnb, execJmp, operate_halted, transfer_halted, h]

/-- Every operation answers a next state, in every state: it completes, blocks, or takes the halt. -/
theorem exec_next (i : Instr) (s : State) : ∃ t, exec i s = .next t := by
  by_cases h : s.status.halted = true
  · exact ⟨s, exec_halted i h⟩
  · have h' : s.status.halted = false := by simpa using h
    cases i <;>
      simp [exec, execNop, execToq16, execMul, execMulu, execDiv, execDivu, execSqrt, execPush, execPop, execFtstep,
        execAcc, execFinp, execFinrms, execFine, execBill, execFinpf, execBnb, execJmp, operate, transfer, h'] <;>
      split <;> simp

/-! ### The step -/

@[simp] theorem State.popped_schedule (s : State) : s.popped.schedule = s.schedule.tail := rfl

/-- A step is the next move, made with its entry taken off the schedule. -/
theorem step_eq (s : State) : step s = applyEvent s.nextMove s.popped := by
  unfold step State.nextMove State.popped
  split
  · rename_i h
    have hs : ({ s with schedule := s.schedule.tail } : State) = s := by
      cases s; simp only at h; subst h; rfl
    rw [hs, h]; rfl
  · rename_i e rest h
    rw [h]; rfl

/-! ### The moves -/

theorem consumerMove_halted {s : State} (h : s.status.halted = true) : consumerMove s = .next s := by
  simp [consumerMove, h]

theorem consumerMove_resumes {s : State} (h : s.status.halted = false) (hw : s.status.waiting = true)
    (hr : s.popMayResume = true) : consumerMove s = exec .pop s := by simp [consumerMove, h, hw, hr]

theorem consumerMove_waits {s : State} (h : s.status.halted = false) (hw : s.status.waiting = true)
    (hr : s.popMayResume = false) : consumerMove s = .next s := by simp [consumerMove, h, hw, hr]

theorem consumerMove_idle {s : State} (h : s.status.halted = false) (hw : s.status.waiting = false)
    (hr : s.ctrl.run = false) : consumerMove s = .next s := by simp [consumerMove, h, hw, hr]

theorem consumerMove_runs {s : State} {i : Instr} (h : s.status.halted = false) (hw : s.status.waiting = false)
    (hr : s.ctrl.run = true) (hf : fetchOperation s.seqPc = some i) : consumerMove s = exec i s := by
  simp [consumerMove, h, hw, hr, hf]

/-- All the consumer's move can do. -/
theorem consumerMove_cases {s t : State} (h : consumerMove s = .next t) :
    t = s ∨ (s.status.halted = false ∧ s.status.waiting = true ∧ s.popMayResume = true ∧ exec .pop s = .next t) ∨
    (∃ i, s.status.halted = false ∧ s.status.waiting = false ∧ s.ctrl.run = true ∧
      fetchOperation s.seqPc = some i ∧ exec i s = .next t) := by
  unfold consumerMove at h
  split at h
  · cases h; exact .inl rfl
  · rename_i hh
    have hh : s.status.halted = false := by simpa using hh
    split at h
    · rename_i hw
      split at h
      · rename_i hr
        exact .inr (.inl ⟨hh, hw, hr, h⟩)
      · cases h; exact .inl rfl
    · rename_i hw
      have hw : s.status.waiting = false := by simpa using hw
      split at h
      · rename_i hr
        split at h
        · rename_i i hf
          exact .inr (.inr ⟨i, hh, hw, hr, hf, h⟩)
        · exact absurd h (by simp)
      · cases h; exact .inl rfl

/-- All a `CMD` write can do. -/
theorem commandMove_cases {w : Word} {s t : State} (h : commandMove w s = .next t) :
    (s.status.halted = true ∧ t = s) ∨ t = s.cmdRefused ∨
    (∃ i, s.status.halted = false ∧ s.ctrl.run = false ∧ s.status.waiting = false ∧ decode w = .ok i ∧
      exec i s = .next t) := by
  unfold commandMove at h
  split at h
  · rename_i hh; cases h; exact .inl ⟨hh, rfl⟩
  · rename_i hh
    split at h
    · cases h; exact .inr (.inl rfl)
    · rename_i hr
      simp only [Bool.or_eq_true, not_or, Bool.not_eq_true] at hr
      split at h
      · rename_i i hd
        exact .inr (.inr ⟨i, by simpa using hh, hr.1, hr.2, hd, h⟩)
      · cases h; exact .inr (.inl rfl)

/-- All a bus write can do: nothing, a `CMD` write, or a register write its class allows. -/
theorem busWriteMove_cases {a : BusAddr} {v : Word} {s t : State} (h : busWriteMove a v s = .next t) :
    t = s ∨ (busDecode a = some .cmd ∧ commandMove v s = .next t) ∨
    (∃ r, busDecode a = some r ∧ r ≠ .cmd ∧ s.hostMayWrite r.hostClass = true ∧ t = s.putReg v r) := by
  unfold busWriteMove at h
  split at h
  · cases h; exact .inl rfl
  · rename_i hd; exact .inr (.inl ⟨hd, h⟩)
  · rename_i r hne hd
    cases h
    unfold State.hostWriteReg
    split
    · rename_i hc
      exact .inr (.inr ⟨r, hd, hne, hc, rfl⟩)
    · exact .inl rfl

/-- The ten operations of the ROM (R195). -/
theorem fetchOperation_cases {pc : BitVec 4} {i : Instr} (h : fetchOperation pc = some i) :
    (pc = 0 ∧ i = .pop) ∨ (pc = 1 ∧ i = .ftstep) ∨ (pc = 2 ∧ i = .acc) ∨ (pc = 3 ∧ i = .bnb 0) ∨ (pc = 4 ∧ i = .finp) ∨
    (pc = 5 ∧ i = .finrms) ∨ (pc = 6 ∧ i = .fine) ∨ (pc = 7 ∧ i = .bill) ∨ (pc = 8 ∧ i = .finpf) ∨
    (pc = 9 ∧ i = .jmp 0) := by
  have all : ∀ pc : BitVec 4, ∀ i, i ∈ fetchOperation pc → (pc = 0 ∧ i = .pop) ∨ (pc = 1 ∧ i = .ftstep) ∨
      (pc = 2 ∧ i = .acc) ∨ (pc = 3 ∧ i = .bnb 0) ∨ (pc = 4 ∧ i = .finp) ∨ (pc = 5 ∧ i = .finrms) ∨
      (pc = 6 ∧ i = .fine) ∨ (pc = 7 ∧ i = .bill) ∨ (pc = 8 ∧ i = .finpf) ∨ (pc = 9 ∧ i = .jmp 0) := by
    decide
  exact all pc i h

end Sys2Proof.Machine
end

