-- ==== Sys2Proof/Laws/FixedPoint.lean ====
section
/-! SUPPORT. The narrowing of exact results and the Newton iteration. -/

namespace Sys2Proof.Machine

/-- A flagged pattern is its two parts. -/
theorem Flagged.eq_of {r : Flagged} {v : Word} {o : Bool} (hv : r.val = v) (ho : r.ovf = o) : r = ⟨v, o⟩ := by
  cases r; subst hv ho; rfl

@[simp] theorem narrowS_val (z : Int) : (narrowS z).val = wrap32 z := rfl
@[simp] theorem narrowU_val (z : Int) : (narrowU z).val = wrap32 z := rfl

theorem narrowS_ovf (z : Int) : (narrowS z).ovf = (decide (z < -2147483648) || decide (2147483647 < z)) := by
  by_cases h1 : -2147483648 ≤ z <;> by_cases h2 : z ≤ 2147483647 <;> simp [narrowS, fitsS, h1, h2] <;> omega

theorem narrowU_ovf (z : Int) : (narrowU z).ovf = (decide (z < 0) || decide (4294967295 < z)) := by
  by_cases h1 : 0 ≤ z <;> by_cases h2 : z ≤ 4294967295 <;> simp [narrowU, fitsU, h1, h2] <;> omega

/-- A pattern that fits reads back as itself, signed. -/
theorem toInt_wrap32 {z : Int} (h1 : -2147483648 ≤ z) (h2 : z ≤ 2147483647) : (wrap32 z).toInt = z := by
  unfold wrap32
  rw [BitVec.toInt_ofInt, Int.bmod_eq_of_le] <;> omega

theorem toNat_wrap32_natCast (n : Nat) : (wrap32 (n : Int)).toNat = n % 4294967296 := by
  unfold wrap32
  simp

@[simp] theorem wrap32_natCast (n : Nat) : wrap32 (n : Int) = BitVec.ofNat 32 n := by
  apply BitVec.eq_of_toNat_eq
  rw [toNat_wrap32_natCast, BitVec.toNat_ofNat]

theorem mulQ_val (a b : Word) : (mulQ a b).val = wrap32 ((a.toInt * b.toInt) / 65536) := by
  simp [mulQ, Int.fdiv_eq_ediv_of_nonneg]

theorem mulQ_ovf (a b : Word) : (mulQ a b).ovf =
    (decide ((a.toInt * b.toInt) / 65536 < -2147483648) || decide (2147483647 < (a.toInt * b.toInt) / 65536)) := by
  simp [mulQ, narrowS_ovf, Int.fdiv_eq_ediv_of_nonneg]

/-- An unsigned narrowing of a natural number: the residue, and whether 2^32 is reached. -/
theorem narrowU_natCast_val (n : Nat) : (narrowU (n : Int)).val = BitVec.ofNat 32 n := by simp

theorem narrowU_natCast_ovf (n : Nat) : (narrowU (n : Int)).ovf = decide (4294967296 ≤ n) := by
  rw [narrowU_ovf, Bool.eq_iff_iff, Bool.or_eq_true, decide_eq_true_eq, decide_eq_true_eq, decide_eq_true_eq]; omega

theorem muluQ_val (a b : Word) : (muluQ a b).val = BitVec.ofNat 32 (a.toNat * b.toNat / 65536) :=
  narrowU_natCast_val _

theorem muluQ_ovf (a b : Word) : (muluQ a b).ovf = decide (4294967296 ≤ a.toNat * b.toNat / 65536) :=
  narrowU_natCast_ovf _

theorem divuQ_val (a b : Word) : (divuQ a b).val = BitVec.ofNat 32 (a.toNat * 65536 / b.toNat) :=
  narrowU_natCast_val _

theorem divuQ_ovf (a b : Word) : (divuQ a b).ovf = decide (4294967296 ≤ a.toNat * 65536 / b.toNat) :=
  narrowU_natCast_ovf _

theorem addU_val (a b : Word) : (addU a b).val = BitVec.ofNat 32 (a.toNat + b.toNat) := narrowU_natCast_val _

theorem addU_ovf (a b : Word) : (addU a b).ovf = decide (4294967296 ≤ a.toNat + b.toNat) := narrowU_natCast_ovf _

theorem increment_val (w : Word) : (increment w).val = BitVec.ofNat 32 (w.toNat + 1) := by
  have := narrowU_natCast_val (w.toNat + 1)
  simpa [increment] using this

theorem increment_ovf (w : Word) : (increment w).ovf = decide (w.toNat = 4294967295) := by
  have h := narrowU_natCast_ovf (w.toNat + 1)
  have hb := w.isLt
  rw [show increment w = narrowU ((w.toNat + 1 : Nat) : Int) from rfl, h, Bool.eq_iff_iff, decide_eq_true_eq,
    decide_eq_true_eq]
  omega

/-- One Newton step in naturals (R107). -/
theorem newtonStep_val (r x : Word) : (newtonStep r x).val =
    BitVec.ofNat 32 ((r.toNat * 65536 / x.toNat % 4294967296 + x.toNat) % 4294967296 / 2) := by
  apply BitVec.eq_of_toNat_eq
  simp only [newtonStep, divuQ_val, wrap32_natCast, BitVec.toNat_ofNat, BitVec.toNat_ushiftRight,
    Nat.shiftRight_eq_div_pow]
  omega

theorem newtonStep_ovf (r x : Word) : (newtonStep r x).ovf =
    (decide (4294967296 ≤ r.toNat * 65536 / x.toNat) ||
      decide (4294967296 ≤ r.toNat * 65536 / x.toNat % 4294967296 + x.toNat)) := by
  have h : ∀ n : Nat, (!fitsU (n : Int)) = decide (4294967296 ≤ n) := narrowU_natCast_ovf
  simp only [newtonStep, divuQ_ovf, divuQ_val, h, BitVec.toNat_ofNat]

/-- A Newton run that meets no zero iterate gives its last iterate, with the iterations' flags. -/
theorem newtonLoop_run (r : Word) (n : Nat) (x : Nat → Word) (o : Bool)
    (h : ∀ k < n, x k ≠ 0 ∧ x (k + 1) = (newtonStep r (x k)).val) :
    newtonLoop r n (x 0) o =
      .value ⟨x n, o || (List.range n).any fun k => (newtonStep r (x k)).ovf⟩ := by
  induction n generalizing x o with
  | zero => simp [newtonLoop]
  | succ n ih =>
    have h0 := h 0 (by omega)
    unfold newtonLoop
    rw [if_neg h0.1, ← h0.2]
    have := ih (fun k => x (k + 1)) (o || (newtonStep r (x 0)).ovf) (fun k hk => h (k + 1) (by omega))
    simp only [Nat.zero_add] at this
    rw [this, List.range_succ_eq_map, List.any_cons, List.any_map, Bool.or_assoc]
    rfl

/-- A run that reaches a zero iterate with an iteration left ends in the divide's `DIV_ZERO`. -/
theorem newtonLoop_zero (r : Word) (n k : Nat) (x : Nat → Word) (o : Bool) (hk : k < n) (hz : x k = 0)
    (h : ∀ j < k, x j ≠ 0 ∧ x (j + 1) = (newtonStep r (x j)).val) :
    newtonLoop r n (x 0) o =
      .fatal .divZero (o || (List.range k).any fun j => (newtonStep r (x j)).ovf) := by
  induction k generalizing x o n with
  | zero =>
    obtain ⟨m, rfl⟩ : ∃ m, n = m + 1 := ⟨n - 1, by omega⟩
    unfold newtonLoop
    simp [hz]
  | succ k ih =>
    obtain ⟨m, rfl⟩ : ∃ m, n = m + 1 := ⟨n - 1, by omega⟩
    have h0 := h 0 (by omega)
    unfold newtonLoop
    rw [if_neg h0.1, ← h0.2]
    have := ih m (fun j => x (j + 1)) (o || (newtonStep r (x 0)).ovf) (by omega) hz (fun j hj => h (j + 1) (by omega))
    simp only [Nat.zero_add] at this
    rw [this, List.range_succ_eq_map, List.any_cons, List.any_map, Bool.or_assoc]
    rfl

theorem sqrtQ_zeroSeed (r : Word) (n : Nat) : sqrtQ r 0 n = .fatal .zeroSeed false := by simp [sqrtQ]

theorem sqrtQ_nonzero (r : Word) {g : Word} (hg : g ≠ 0) (n : Nat) : sqrtQ r g n = newtonLoop r n g false :=
  if_neg hg

end Sys2Proof.Machine
end

