-- ==== Sys2Proof/Laws/Memory.lean ====
section
/-! SUPPORT. The window's memory: read after write, the canonical form, and what a write leaves alone. -/

namespace Sys2Proof.Machine

theorem Memory.readByte_of_lt {m : Memory} {lo a : Nat} (h : Memory.wfFrom lo m = true) (ha : a < lo) :
    m.readByte a = unwrittenByte := by
  induction m generalizing lo with
  | nil => rfl
  | cons c m ih =>
    obtain ⟨k, b⟩ := c
    simp only [Memory.wfFrom, Bool.and_eq_true, decide_eq_true_eq] at h
    have hk : k ≠ a := by omega
    simp only [Memory.readByte, hk, if_false]
    exact ih h.2 (by omega)

theorem Memory.wfFrom_mono {m : Memory} {lo lo' : Nat} (h : Memory.wfFrom lo m = true) (hl : lo' ≤ lo) :
    Memory.wfFrom lo' m = true := by
  cases m with
  | nil => rfl
  | cons c m =>
    obtain ⟨k, b⟩ := c
    simp only [Memory.wfFrom, Bool.and_eq_true, decide_eq_true_eq] at h ⊢
    exact ⟨⟨by omega, h.1.2⟩, h.2⟩

theorem Memory.wfFrom_consCell {m : Memory} {lo a : Nat} (b : Byte) (hl : lo ≤ a)
    (h : Memory.wfFrom (a + 1) m = true) : Memory.wfFrom lo (Memory.consCell a b m) = true := by
  unfold Memory.consCell
  split
  · exact Memory.wfFrom_mono h (by omega)
  · simp [Memory.wfFrom, *]

/-- A store keeps the canonical form. -/
theorem Memory.wfFrom_writeByte {m : Memory} {lo a : Nat} (b : Byte) (h : Memory.wfFrom lo m = true) (hl : lo ≤ a) :
    Memory.wfFrom lo (m.writeByte a b) = true := by
  induction m generalizing lo with
  | nil => exact Memory.wfFrom_consCell b hl rfl
  | cons c m ih =>
    obtain ⟨k, d⟩ := c
    simp only [Memory.wfFrom, Bool.and_eq_true, decide_eq_true_eq] at h
    unfold Memory.writeByte
    split
    · refine Memory.wfFrom_consCell b hl ?_
      simp only [Memory.wfFrom, Bool.and_eq_true, decide_eq_true_eq]
      exact ⟨⟨by omega, h.1.2⟩, h.2⟩
    · split
      · subst_vars
        exact Memory.wfFrom_consCell b hl h.2
      · simp only [Memory.wfFrom, Bool.and_eq_true, decide_eq_true_eq]
        exact ⟨h.1, ih h.2 (by omega)⟩

theorem Memory.readByte_consCell {m : Memory} {a x : Nat} (b : Byte) (h : m.readByte a = unwrittenByte) :
    (Memory.consCell a b m).readByte x = if a = x then b else m.readByte x := by
  unfold Memory.consCell
  by_cases hb : b = unwrittenByte <;> by_cases hx : a = x <;> simp_all [Memory.readByte]

/-- Read after write: the stored address gives the stored byte, every other address what it gave before. -/
theorem Memory.readByte_writeByte_from {m : Memory} {lo : Nat} (h : Memory.wfFrom lo m = true) (a : Nat) (b : Byte)
    (x : Nat) : (m.writeByte a b).readByte x = if a = x then b else m.readByte x := by
  induction m generalizing lo with
  | nil => exact Memory.readByte_consCell b rfl
  | cons c m ih =>
    obtain ⟨k, d⟩ := c
    simp only [Memory.wfFrom, Bool.and_eq_true, decide_eq_true_eq] at h
    unfold Memory.writeByte
    split
    next hak =>
      refine Memory.readByte_consCell b ?_
      exact Memory.readByte_of_lt (lo := k)
        (by simp only [Memory.wfFrom, Bool.and_eq_true, decide_eq_true_eq]; exact ⟨⟨by omega, h.1.2⟩, h.2⟩) hak
    next hak =>
      split
      next hk =>
        subst hk
        rw [Memory.readByte_consCell b (Memory.readByte_of_lt h.2 (by omega))]
        by_cases hx : a = x <;> simp [Memory.readByte, hx]
      next hk =>
        simp only [Memory.readByte, ih h.2]
        by_cases hx : k = x
        · subst hx; simp [hk]
        · simp [hx]

theorem Memory.readByte_writeByte {m : Memory} (h : m.wf = true) (a : Nat) (b : Byte) (x : Nat) :
    (m.writeByte a b).readByte x = if a = x then b else m.readByte x :=
  Memory.readByte_writeByte_from h a b x

theorem Memory.wf_writeByte {m : Memory} (h : m.wf = true) (a : Nat) (b : Byte) : (m.writeByte a b).wf = true :=
  Memory.wfFrom_writeByte b h (by omega)

/-- Every memory operation keeps the canonical form. -/
theorem Memory.wf_writeHalf {m : Memory} (h : m.wf = true) (w : Nat) (v : Half) : (m.writeHalf w v).wf = true :=
  Memory.wf_writeByte (Memory.wf_writeByte h _ _) _ _

theorem Memory.readByte_writeHalf {m : Memory} (h : m.wf = true) (w : Nat) (v : Half) (x : Nat) :
    (m.writeHalf w v).readByte x =
      if byteAddr w 0 = x then v.extractLsb' 0 8 else if byteAddr w 1 = x then v.extractLsb' 8 8 else m.readByte x := by
  unfold Memory.writeHalf
  rw [Memory.readByte_writeByte (Memory.wf_writeByte h _ _), Memory.readByte_writeByte h]
  by_cases h1 : byteAddr w 1 = x
  · have h0 : byteAddr w 0 ≠ x := by unfold byteAddr at *; omega
    simp [h1, h0]
  · simp [h1]

/-- An entry read back after it is written. -/
theorem Memory.readHalf_writeHalf_same {m : Memory} (h : m.wf = true) (w : Nat) (v : Half) :
    (m.writeHalf w v).readHalf w = v := by
  have hne : byteAddr w 0 ≠ byteAddr w 1 := by unfold byteAddr; omega
  unfold Memory.readHalf
  rw [Memory.readByte_writeHalf h, Memory.readByte_writeHalf h]
  simp only [hne, if_false, if_true]
  ext i hi
  simp only [BitVec.getElem_append, BitVec.getElem_extractLsb']
  split
  · simp [BitVec.getLsbD_eq_getElem hi]
  · rename_i h8
    have : 8 + (i - 8) = i := by omega
    simp [this, BitVec.getLsbD_eq_getElem hi]

/-- Another entry keeps its value. -/
theorem Memory.readHalf_writeHalf_ne {m : Memory} (h : m.wf = true) {w w' : Nat} (hw : w ≠ w') (v : Half) :
    (m.writeHalf w v).readHalf w' = m.readHalf w' := by
  unfold Memory.readHalf
  have e1 : ∀ i j, i < 2 → j < 2 → byteAddr w i ≠ byteAddr w' j := by unfold byteAddr; omega
  rw [Memory.readByte_writeHalf h, Memory.readByte_writeHalf h]
  simp [e1]

theorem Memory.inWindow_consCell {m : Memory} {a : Nat} (b : Byte) (ha : isWindowByte a = true)
    (h : m.inWindow = true) : (Memory.consCell a b m).inWindow = true := by
  unfold Memory.consCell
  split
  · exact h
  · simp [Memory.inWindow, ha] at *; exact h

theorem Memory.inWindow_writeByte {m : Memory} {a : Nat} (b : Byte) (ha : isWindowByte a = true)
    (h : m.inWindow = true) : (m.writeByte a b).inWindow = true := by
  induction m with
  | nil => exact Memory.inWindow_consCell b ha h
  | cons c m ih =>
    have hc : isWindowByte c.1 = true ∧ Memory.inWindow m = true := by simpa [Memory.inWindow] using h
    unfold Memory.writeByte
    split
    · exact Memory.inWindow_consCell b ha h
    · split
      · exact Memory.inWindow_consCell b ha hc.2
      · have := ih hc.2
        simp only [Memory.inWindow, List.all_cons, Bool.and_eq_true] at *
        exact ⟨hc.1, this⟩

/-- Both bytes of a window entry are window bytes. -/
theorem isWindowByte_entry {w b : Nat} (h1 : 0x40 ≤ w) (h2 : w < 0x60) (hb : b < 2) :
    isWindowByte (byteAddr w b) = true := by
  have h3 : (4 * w + b) % 4 < 2 := by omega
  have h4 : 0x40 * 4 ≤ 4 * w + b := by omega
  have h5 : 4 * w + b < 0x60 * 4 := by omega
  unfold isWindowByte byteAddr
  rw [decide_eq_true h3, decide_eq_true h4, decide_eq_true h5]
  rfl

theorem Memory.inWindow_writeHalf {m : Memory} {w : Nat} (h1 : 0x40 ≤ w) (h2 : w < 0x60) (v : Half)
    (h : m.inWindow = true) : (m.writeHalf w v).inWindow = true :=
  Memory.inWindow_writeByte _ (isWindowByte_entry h1 h2 (by decide))
    (Memory.inWindow_writeByte _ (isWindowByte_entry h1 h2 (by decide)) h)

theorem vbufWord_bounds (k : BitVec 4) : 0x40 ≤ vbufWord k ∧ vbufWord k < 0x50 := by
  unfold vbufWord; omega

theorem ibufWord_bounds (k : BitVec 4) : 0x50 ≤ ibufWord k ∧ ibufWord k < 0x60 := by
  unfold ibufWord; omega

theorem vbufWord_inj {k j : BitVec 4} : vbufWord k = vbufWord j ↔ k = j := by
  unfold vbufWord
  constructor
  · intro h; exact BitVec.eq_of_toNat_eq (by omega)
  · rintro rfl; rfl

theorem ibufWord_inj {k j : BitVec 4} : ibufWord k = ibufWord j ↔ k = j := by
  unfold ibufWord
  constructor
  · intro h; exact BitVec.eq_of_toNat_eq (by omega)
  · rintro rfl; rfl

theorem vbufWord_ne_ibufWord (k j : BitVec 4) : vbufWord k ≠ ibufWord j := by
  have := vbufWord_bounds k; have := ibufWord_bounds j; omega

theorem loadWindow_wf {hs : List Half} {w : Nat} {m : Memory} (h : m.wf = true) : (loadWindow hs w m).wf = true := by
  induction hs generalizing w m with
  | nil => exact h
  | cons x hs ih =>
    unfold loadWindow
    split
    · exact ih (Memory.wf_writeHalf h _ _)
    · exact h

theorem loadWindow_inWindow {hs : List Half} {w : Nat} {m : Memory} (hw : 0x40 ≤ w) (h : m.inWindow = true) :
    (loadWindow hs w m).inWindow = true := by
  induction hs generalizing w m with
  | nil => exact h
  | cons x hs ih =>
    unfold loadWindow
    split
    · exact ih (by omega) (Memory.inWindow_writeHalf hw ‹_› _ h)
    · exact h

/-- What a loaded window reads at an entry: the listed value, or what was there. -/
theorem readHalf_loadWindow {hs : List Half} {w : Nat} {m : Memory} (h : m.wf = true) (x : Nat) (hx : x < 0x60) :
    (loadWindow hs w m).readHalf x = if w ≤ x then hs.getD (x - w) (m.readHalf x) else m.readHalf x := by
  induction hs generalizing w m with
  | nil => unfold loadWindow; simp
  | cons v hs ih =>
    unfold loadWindow
    split
    · rw [ih (Memory.wf_writeHalf h _ _)]
      by_cases hwx : w = x
      · subst hwx
        have : ¬ (w + 1 ≤ w) := by omega
        simp [this, Memory.readHalf_writeHalf_same h]
      · rw [Memory.readHalf_writeHalf_ne h hwx]
        by_cases hle : w ≤ x
        · have h1 : w + 1 ≤ x := by omega
          have h2 : x - w = (x - (w + 1)) + 1 := by omega
          simp [hle, h1, h2]
        · have h1 : ¬ (w + 1 ≤ x) := by omega
          simp [hle, h1]
    · have : ¬ (w ≤ x) := by omega
      simp [this]

/-- The memory right after reset is canonical, and so is that of a reset event. -/
theorem State.reset_mem_wf : State.reset.mem.wf = true := rfl

theorem State.afterReset_mem_wf (s : State) (u : ResetInputs) : (s.afterReset u).mem.wf = true := loadWindow_wf rfl

end Sys2Proof.Machine
end

