-- ==== Sys2Proof/Laws/Exec.lean ====
section
/-! SUPPORT. One equation per operation: what `exec` answers in a state that is not halted. Proofs cite these and never
unfold the envelope. -/

namespace Sys2Proof.Machine

theorem exec_nop {s : State} (h : s.status.halted = false) :
    exec .nop s = .next s.advance := by
  simp [exec, execNop, operate_running, h]

theorem exec_toq16 {s : State} (h : s.status.halted = false) :
    exec .toq16 s = .next (s.putRes (toQ16 (lowHalfSigned s.regs.opa))).advance := by
  simp [exec, execToq16, operate_running, h]

theorem exec_mul {s : State} (h : s.status.halted = false) :
    exec .mul s = .next ((s.noteOvf (mulQ s.regs.opa s.regs.opb).ovf).putRes (mulQ s.regs.opa s.regs.opb).val).advance := by
  simp [exec, execMul, operate_running, h]

theorem exec_mulu {s : State} (h : s.status.halted = false) :
    exec .mulu s = .next ((s.noteOvf (muluQ s.regs.opa s.regs.opb).ovf).putRes (muluQ s.regs.opa s.regs.opb).val).advance := by
  simp [exec, execMulu, operate_running, h]

theorem exec_push {s : State} (h : s.status.halted = false) :
    exec .push s = .next s.pushSample.advance := by
  simp [exec, execPush, operate_running, h]

theorem exec_ftstep {s : State} (h : s.status.halted = false) :
    exec .ftstep s = .next ((ftstepBody s).finish (Instr.opcode .ftstep)) := by
  simp [exec, execFtstep, operate_running, h]

theorem exec_acc {s : State} (h : s.status.halted = false) :
    exec .acc s = .next s.accumulateSample.advance := by
  simp [exec, execAcc, operate_running, h]

theorem exec_finp {s : State} (h : s.status.halted = false) :
    exec .finp s = .next ((finpBody s).finish (Instr.opcode .finp)) := by
  simp [exec, execFinp, operate_running, h]

theorem exec_finrms {s : State} (h : s.status.halted = false) :
    exec .finrms s = .next ((finrmsBody s).finish (Instr.opcode .finrms)) := by
  simp [exec, execFinrms, operate_running, h]

theorem exec_fine {s : State} (h : s.status.halted = false) :
    exec .fine s = .next s.integrateEnergy.advance := by
  simp [exec, execFine, operate_running, h]

theorem exec_bill {s : State} (h : s.status.halted = false) :
    exec .bill s = .next s.billCycle.advance := by
  simp [exec, execBill, operate_running, h]

theorem exec_finpf {s : State} (h : s.status.halted = false) :
    exec .finpf s = .next s.estimatePf.advance := by
  simp [exec, execFinpf, operate_running, h]

theorem exec_div {s : State} (h : s.status.halted = false) (h0 : s.regs.opb ≠ 0) :
    exec .div s = .next ((s.noteOvf (divQ s.regs.opa s.regs.opb).ovf).putRes (divQ s.regs.opa s.regs.opb).val).advance := by
  simp [exec, execDiv, operate_running, h, divCalc, show ¬ s.regs.opb = 0#32 from h0]

theorem exec_div_zero {s : State} (h : s.status.halted = false) (h0 : s.regs.opb = 0) :
    exec .div s = .next ((s.noteOvf false).takeFatal (Instr.opcode .div) .divZero) := by
  simp [exec, execDiv, operate_running, h, divCalc, h0]

theorem exec_divu {s : State} (h : s.status.halted = false) (h0 : s.regs.opb ≠ 0) :
    exec .divu s = .next ((s.noteOvf (divuQ s.regs.opa s.regs.opb).ovf).putRes (divuQ s.regs.opa s.regs.opb).val).advance := by
  simp [exec, execDivu, operate_running, h, divuCalc, show ¬ s.regs.opb = 0#32 from h0]

theorem exec_divu_zero {s : State} (h : s.status.halted = false) (h0 : s.regs.opb = 0) :
    exec .divu s = .next ((s.noteOvf false).takeFatal (Instr.opcode .divu) .divZero) := by
  simp [exec, execDivu, operate_running, h, divuCalc, h0]

/-- SQRT's value: RES and the flag. -/
theorem exec_sqrt_value {s : State} {n : BitVec 8} {r : Flagged} (h : s.status.halted = false)
    (hq : sqrtQ s.regs.opa s.regs.opb n.toNat = .value r) :
    exec (.sqrt n) s = .next ((s.noteOvf r.ovf).putRes r.val).advance := by
  simp [exec, execSqrt, operate_running, h, iterations, hq]

/-- SQRT's fatal conditions. -/
theorem exec_sqrt_fatal {s : State} {n : BitVec 8} {c : Cause} {o : Bool} (h : s.status.halted = false)
    (hq : sqrtQ s.regs.opa s.regs.opb n.toNat = .fatal c o) :
    exec (.sqrt n) s = .next ((s.noteOvf o).takeFatal (Instr.opcode (.sqrt n)) c) := by
  simp [exec, execSqrt, operate_running, h, iterations, hq]

theorem exec_pop_take {s : State} (h : s.status.halted = false) (ha : s.channel.avail ≠ 0) :
    exec .pop s = .next s.takeSample.advance := by
  simp [exec, execPop, operate_running, h, popBody, show ¬ s.channel.avail = 0#32 from ha]

theorem exec_pop_block {s : State} (h : s.status.halted = false) (ha : s.channel.avail = 0) :
    exec .pop s = .next s.blockPop := by
  simp [exec, execPop, operate_running, h, popBody, ha]

theorem exec_bnb_run {s : State} (t : BitVec 8) (h : s.status.halted = false) (hr : s.ctrl.run = true) :
    exec (.bnb t) s = .next { s with seqPc := if s.tracker.boundary then s.seqPc + 1 else romTarget t } := by
  simp [exec, execBnb, transfer_running, h, hr]

theorem exec_jmp_run {s : State} (t : BitVec 8) (h : s.status.halted = false) (hr : s.ctrl.run = true) :
    exec (.jmp t) s = .next { s with seqPc := romTarget t } := by
  simp [exec, execJmp, transfer_running, h, hr]

theorem exec_bnb_direct {s : State} (t : BitVec 8) (h : s.status.halted = false) (hr : s.ctrl.run = false) :
    exec (.bnb t) s = .next s.cmdRefused := by
  simp [exec, execBnb, transfer_direct, h, hr]

theorem exec_jmp_direct {s : State} (t : BitVec 8) (h : s.status.halted = false) (hr : s.ctrl.run = false) :
    exec (.jmp t) s = .next s.cmdRefused := by
  simp [exec, execJmp, transfer_direct, h, hr]

/-! ### What the longer bodies leave alone -/

theorem State.vbuf_congr {s t : State} (h : t.mem = s.mem) (k : BitVec 4) : t.vbuf k = s.vbuf k := by
  simp [State.vbuf, h]

theorem State.ibuf_congr {s t : State} (h : t.mem = s.mem) (k : BitVec 4) : t.ibuf k = s.ibuf k := by
  simp [State.ibuf, h]

@[simp] theorem State.pushSample_regs (s : State) : s.pushSample.regs = s.regs := rfl
@[simp] theorem State.pushSample_seqPc (s : State) : s.pushSample.seqPc = s.seqPc := rfl
@[simp] theorem State.pushSample_ctrl (s : State) : s.pushSample.ctrl = s.ctrl := rfl
@[simp] theorem State.pushSample_fault (s : State) : s.pushSample.fault = s.fault := rfl
@[simp] theorem State.pushSample_inputs (s : State) : s.pushSample.inputs = s.inputs := rfl
@[simp] theorem State.pushSample_rates (s : State) : s.pushSample.rates = s.rates := rfl
@[simp] theorem State.pushSample_tracker (s : State) : s.pushSample.tracker = s.tracker := rfl
@[simp] theorem State.pushSample_agg (s : State) : s.pushSample.agg = s.agg := rfl
@[simp] theorem State.pushSample_energy (s : State) : s.pushSample.energy = s.energy := rfl
@[simp] theorem State.pushSample_bill (s : State) : s.pushSample.bill = s.bill := rfl
@[simp] theorem State.pushSample_totals (s : State) : s.pushSample.totals = s.totals := rfl
@[simp] theorem State.pushSample_periodEvents (s : State) : s.pushSample.periodEvents = s.periodEvents := rfl
@[simp] theorem State.pushSample_busReads (s : State) : s.pushSample.busReads = s.busReads := rfl
@[simp] theorem State.pushSample_schedule (s : State) : s.pushSample.schedule = s.schedule := rfl
@[simp] theorem State.pushSample_params (s : State) : s.pushSample.params = s.params := rfl

@[simp] theorem State.takeSample_seqPc (s : State) : s.takeSample.seqPc = s.seqPc := rfl
@[simp] theorem State.takeSample_ctrl (s : State) : s.takeSample.ctrl = s.ctrl := rfl
@[simp] theorem State.takeSample_fault (s : State) : s.takeSample.fault = s.fault := rfl
@[simp] theorem State.takeSample_inputs (s : State) : s.takeSample.inputs = s.inputs := rfl
@[simp] theorem State.takeSample_rates (s : State) : s.takeSample.rates = s.rates := rfl
@[simp] theorem State.takeSample_mem (s : State) : s.takeSample.mem = s.mem := rfl
@[simp] theorem State.takeSample_tracker (s : State) : s.takeSample.tracker = s.tracker := rfl
@[simp] theorem State.takeSample_agg (s : State) : s.takeSample.agg = s.agg := rfl
@[simp] theorem State.takeSample_energy (s : State) : s.takeSample.energy = s.energy := rfl
@[simp] theorem State.takeSample_bill (s : State) : s.takeSample.bill = s.bill := rfl
@[simp] theorem State.takeSample_totals (s : State) : s.takeSample.totals = s.totals := rfl
@[simp] theorem State.takeSample_periodEvents (s : State) : s.takeSample.periodEvents = s.periodEvents := rfl
@[simp] theorem State.takeSample_busReads (s : State) : s.takeSample.busReads = s.busReads := rfl
@[simp] theorem State.takeSample_schedule (s : State) : s.takeSample.schedule = s.schedule := rfl
@[simp] theorem State.takeSample_params (s : State) : s.takeSample.params = s.params := rfl

@[simp] theorem State.accumulateSample_regs (s : State) : s.accumulateSample.regs = s.regs := rfl
@[simp] theorem State.accumulateSample_seqPc (s : State) : s.accumulateSample.seqPc = s.seqPc := rfl
@[simp] theorem State.accumulateSample_ctrl (s : State) : s.accumulateSample.ctrl = s.ctrl := rfl
@[simp] theorem State.accumulateSample_fault (s : State) : s.accumulateSample.fault = s.fault := rfl
@[simp] theorem State.accumulateSample_inputs (s : State) : s.accumulateSample.inputs = s.inputs := rfl
@[simp] theorem State.accumulateSample_rates (s : State) : s.accumulateSample.rates = s.rates := rfl
@[simp] theorem State.accumulateSample_channel (s : State) : s.accumulateSample.channel = s.channel := rfl
@[simp] theorem State.accumulateSample_mem (s : State) : s.accumulateSample.mem = s.mem := rfl
@[simp] theorem State.accumulateSample_tracker (s : State) : s.accumulateSample.tracker = s.tracker := rfl
@[simp] theorem State.accumulateSample_energy (s : State) : s.accumulateSample.energy = s.energy := rfl
@[simp] theorem State.accumulateSample_bill (s : State) : s.accumulateSample.bill = s.bill := rfl
@[simp] theorem State.accumulateSample_totals (s : State) : s.accumulateSample.totals = s.totals := rfl
@[simp] theorem State.accumulateSample_popLifted (s : State) : s.accumulateSample.popLifted = s.popLifted := rfl
@[simp] theorem State.accumulateSample_periodEvents (s : State) : s.accumulateSample.periodEvents = s.periodEvents := rfl
@[simp] theorem State.accumulateSample_busReads (s : State) : s.accumulateSample.busReads = s.busReads := rfl
@[simp] theorem State.accumulateSample_schedule (s : State) : s.accumulateSample.schedule = s.schedule := rfl
@[simp] theorem State.accumulateSample_params (s : State) : s.accumulateSample.params = s.params := rfl

@[simp] theorem State.integrateEnergy_regs (s : State) : s.integrateEnergy.regs = s.regs := by
  unfold State.integrateEnergy State.energyCarryStep; dsimp only; split <;> rfl
@[simp] theorem State.integrateEnergy_seqPc (s : State) : s.integrateEnergy.seqPc = s.seqPc := by
  unfold State.integrateEnergy State.energyCarryStep; dsimp only; split <;> rfl
@[simp] theorem State.integrateEnergy_ctrl (s : State) : s.integrateEnergy.ctrl = s.ctrl := by
  unfold State.integrateEnergy State.energyCarryStep; dsimp only; split <;> rfl
@[simp] theorem State.integrateEnergy_fault (s : State) : s.integrateEnergy.fault = s.fault := by
  unfold State.integrateEnergy State.energyCarryStep; dsimp only; split <;> rfl
@[simp] theorem State.integrateEnergy_inputs (s : State) : s.integrateEnergy.inputs = s.inputs := by
  unfold State.integrateEnergy State.energyCarryStep; dsimp only; split <;> rfl
@[simp] theorem State.integrateEnergy_rates (s : State) : s.integrateEnergy.rates = s.rates := by
  unfold State.integrateEnergy State.energyCarryStep; dsimp only; split <;> rfl
@[simp] theorem State.integrateEnergy_channel (s : State) : s.integrateEnergy.channel = s.channel := by
  unfold State.integrateEnergy State.energyCarryStep; dsimp only; split <;> rfl
@[simp] theorem State.integrateEnergy_mem (s : State) : s.integrateEnergy.mem = s.mem := by
  unfold State.integrateEnergy State.energyCarryStep; dsimp only; split <;> rfl
@[simp] theorem State.integrateEnergy_tracker (s : State) : s.integrateEnergy.tracker = s.tracker := by
  unfold State.integrateEnergy State.energyCarryStep; dsimp only; split <;> rfl
@[simp] theorem State.integrateEnergy_agg (s : State) : s.integrateEnergy.agg = s.agg := by
  unfold State.integrateEnergy State.energyCarryStep; dsimp only; split <;> rfl
@[simp] theorem State.integrateEnergy_bill (s : State) : s.integrateEnergy.bill = s.bill := by
  unfold State.integrateEnergy State.energyCarryStep; dsimp only; split <;> rfl
@[simp] theorem State.integrateEnergy_popLifted (s : State) : s.integrateEnergy.popLifted = s.popLifted := by
  unfold State.integrateEnergy State.energyCarryStep; dsimp only; split <;> rfl
@[simp] theorem State.integrateEnergy_periodEvents (s : State) : s.integrateEnergy.periodEvents = s.periodEvents := by
  unfold State.integrateEnergy State.energyCarryStep; dsimp only; split <;> rfl
@[simp] theorem State.integrateEnergy_busReads (s : State) : s.integrateEnergy.busReads = s.busReads := by
  unfold State.integrateEnergy State.energyCarryStep; dsimp only; split <;> rfl
@[simp] theorem State.integrateEnergy_schedule (s : State) : s.integrateEnergy.schedule = s.schedule := by
  unfold State.integrateEnergy State.energyCarryStep; dsimp only; split <;> rfl
@[simp] theorem State.integrateEnergy_params (s : State) : s.integrateEnergy.params = s.params := by
  unfold State.integrateEnergy State.energyCarryStep; dsimp only; split <;> rfl

@[simp] theorem State.estimatePf_regs (s : State) : s.estimatePf.regs = s.regs := by
  unfold State.estimatePf; dsimp only; split <;> rfl
@[simp] theorem State.estimatePf_seqPc (s : State) : s.estimatePf.seqPc = s.seqPc := by
  unfold State.estimatePf; dsimp only; split <;> rfl
@[simp] theorem State.estimatePf_ctrl (s : State) : s.estimatePf.ctrl = s.ctrl := by
  unfold State.estimatePf; dsimp only; split <;> rfl
@[simp] theorem State.estimatePf_fault (s : State) : s.estimatePf.fault = s.fault := by
  unfold State.estimatePf; dsimp only; split <;> rfl
@[simp] theorem State.estimatePf_inputs (s : State) : s.estimatePf.inputs = s.inputs := by
  unfold State.estimatePf; dsimp only; split <;> rfl
@[simp] theorem State.estimatePf_rates (s : State) : s.estimatePf.rates = s.rates := by
  unfold State.estimatePf; dsimp only; split <;> rfl
@[simp] theorem State.estimatePf_channel (s : State) : s.estimatePf.channel = s.channel := by
  unfold State.estimatePf; dsimp only; split <;> rfl
@[simp] theorem State.estimatePf_mem (s : State) : s.estimatePf.mem = s.mem := by
  unfold State.estimatePf; dsimp only; split <;> rfl
@[simp] theorem State.estimatePf_tracker (s : State) : s.estimatePf.tracker = s.tracker := by
  unfold State.estimatePf; dsimp only; split <;> rfl
@[simp] theorem State.estimatePf_agg (s : State) : s.estimatePf.agg = s.agg := by
  unfold State.estimatePf; dsimp only; split <;> rfl
@[simp] theorem State.estimatePf_energy (s : State) : s.estimatePf.energy = s.energy := by
  unfold State.estimatePf; dsimp only; split <;> rfl
@[simp] theorem State.estimatePf_bill (s : State) : s.estimatePf.bill = s.bill := by
  unfold State.estimatePf; dsimp only; split <;> rfl
@[simp] theorem State.estimatePf_popLifted (s : State) : s.estimatePf.popLifted = s.popLifted := by
  unfold State.estimatePf; dsimp only; split <;> rfl
@[simp] theorem State.estimatePf_periodEvents (s : State) : s.estimatePf.periodEvents = s.periodEvents := by
  unfold State.estimatePf; dsimp only; split <;> rfl
@[simp] theorem State.estimatePf_busReads (s : State) : s.estimatePf.busReads = s.busReads := by
  unfold State.estimatePf; dsimp only; split <;> rfl
@[simp] theorem State.estimatePf_schedule (s : State) : s.estimatePf.schedule = s.schedule := by
  unfold State.estimatePf; dsimp only; split <;> rfl
@[simp] theorem State.estimatePf_params (s : State) : s.estimatePf.params = s.params := by
  unfold State.estimatePf; dsimp only; split <;> rfl

@[simp] theorem State.billCycle_regs (s : State) : s.billCycle.regs = s.regs := by
  unfold State.billCycle State.dollarCarryStep State.centCarryStep; dsimp only; split <;> split <;> rfl
@[simp] theorem State.billCycle_seqPc (s : State) : s.billCycle.seqPc = s.seqPc := by
  unfold State.billCycle State.dollarCarryStep State.centCarryStep; dsimp only; split <;> split <;> rfl
@[simp] theorem State.billCycle_ctrl (s : State) : s.billCycle.ctrl = s.ctrl := by
  unfold State.billCycle State.dollarCarryStep State.centCarryStep; dsimp only; split <;> split <;> rfl
@[simp] theorem State.billCycle_fault (s : State) : s.billCycle.fault = s.fault := by
  unfold State.billCycle State.dollarCarryStep State.centCarryStep; dsimp only; split <;> split <;> rfl
@[simp] theorem State.billCycle_inputs (s : State) : s.billCycle.inputs = s.inputs := by
  unfold State.billCycle State.dollarCarryStep State.centCarryStep; dsimp only; split <;> split <;> rfl
@[simp] theorem State.billCycle_rates (s : State) : s.billCycle.rates = s.rates := by
  unfold State.billCycle State.dollarCarryStep State.centCarryStep; dsimp only; split <;> split <;> rfl
@[simp] theorem State.billCycle_channel (s : State) : s.billCycle.channel = s.channel := by
  unfold State.billCycle State.dollarCarryStep State.centCarryStep; dsimp only; split <;> split <;> rfl
@[simp] theorem State.billCycle_mem (s : State) : s.billCycle.mem = s.mem := by
  unfold State.billCycle State.dollarCarryStep State.centCarryStep; dsimp only; split <;> split <;> rfl
@[simp] theorem State.billCycle_tracker (s : State) : s.billCycle.tracker = s.tracker := by
  unfold State.billCycle State.dollarCarryStep State.centCarryStep; dsimp only; split <;> split <;> rfl
@[simp] theorem State.billCycle_agg (s : State) : s.billCycle.agg = s.agg := by
  unfold State.billCycle State.dollarCarryStep State.centCarryStep; dsimp only; split <;> split <;> rfl
@[simp] theorem State.billCycle_energy (s : State) : s.billCycle.energy = s.energy := by
  unfold State.billCycle State.dollarCarryStep State.centCarryStep; dsimp only; split <;> split <;> rfl
@[simp] theorem State.billCycle_popLifted (s : State) : s.billCycle.popLifted = s.popLifted := by
  unfold State.billCycle State.dollarCarryStep State.centCarryStep; dsimp only; split <;> split <;> rfl
@[simp] theorem State.billCycle_periodEvents (s : State) : s.billCycle.periodEvents = s.periodEvents := by
  unfold State.billCycle State.dollarCarryStep State.centCarryStep; dsimp only; split <;> split <;> rfl
@[simp] theorem State.billCycle_busReads (s : State) : s.billCycle.busReads = s.busReads := by
  unfold State.billCycle State.dollarCarryStep State.centCarryStep; dsimp only; split <;> split <;> rfl
@[simp] theorem State.billCycle_schedule (s : State) : s.billCycle.schedule = s.schedule := by
  unfold State.billCycle State.dollarCarryStep State.centCarryStep; dsimp only; split <;> split <;> rfl
@[simp] theorem State.billCycle_params (s : State) : s.billCycle.params = s.params := by
  unfold State.billCycle State.dollarCarryStep State.centCarryStep; dsimp only; split <;> split <;> rfl

/-- PUSH's writes (R121). -/
@[simp] theorem State.pushSample_channel (s : State) : s.pushSample.channel =
    { s.channel with avail := (increment s.channel.avail).val, pcur := s.channel.pcur + 1 } := rfl

@[simp] theorem State.pushSample_status (s : State) : s.pushSample.status =
    { s.status with ovf := s.status.ovf || (increment s.channel.avail).ovf } := rfl

@[simp] theorem State.pushSample_mem (s : State) : s.pushSample.mem =
    (s.mem.writeHalf (vbufWord s.channel.pcur) s.inputs.adcV).writeHalf (ibufWord s.channel.pcur) s.inputs.adcI := rfl

@[simp] theorem State.pushSample_popLifted (s : State) : s.pushSample.popLifted =
    (s.popLifted || (s.status.waiting && decide ((increment s.channel.avail).val ≠ 0))) := rfl

/-- POP's writes (R122). -/
@[simp] theorem State.takeSample_channel (s : State) : s.takeSample.channel =
    { s.channel with avail := s.channel.avail - 1, ccur := s.channel.ccur + 1 } := rfl

@[simp] theorem State.takeSample_popLifted (s : State) : s.takeSample.popLifted = false := rfl

@[simp] theorem State.takeSample_status (s : State) : s.takeSample.status =
    { s.status with
      ovf := s.status.ovf || ((conv s.params (rawCode (s.vbuf s.channel.ccur)) ratioV).ovf ||
        (conv s.params (rawCode (s.ibuf s.channel.ccur)) ratioI).ovf)
      waiting := false } := rfl

@[simp] theorem State.takeSample_regs (s : State) : s.takeSample.regs =
    { s.regs with
      rV := (conv s.params (rawCode (s.vbuf s.channel.ccur)) ratioV).val
      rI := (conv s.params (rawCode (s.ibuf s.channel.ccur)) ratioI).val } := rfl

/-- A PUSH keeps the memory's canonical form and stays inside the window (R61). -/
theorem State.pushSample_wf {s : State} (h : s.mem.wf = true) : s.pushSample.mem.wf = true :=
  Memory.wf_writeHalf (Memory.wf_writeHalf h _ _) _ _

theorem State.pushSample_inWindow {s : State} (h : s.mem.inWindow = true) : s.pushSample.mem.inWindow = true := by
  have hv := vbufWord_bounds s.channel.pcur
  have hi := ibufWord_bounds s.channel.pcur
  exact Memory.inWindow_writeHalf (by omega) (by omega) _ (Memory.inWindow_writeHalf (by omega) (by omega) _ h)

end Sys2Proof.Machine
end

