-- ==== Sys2Proof/Laws/Frames.lean ====
section
/-! SUPPORT. What every operation leaves alone, and all that executing one can do, said once for all operations. -/

namespace Sys2Proof.Machine

/-- The state an operation's pseudocode ends in. -/
def Effect.state : Effect → State
  | .done s => s
  | .blocked s => s
  | .fatal _ s => s

/-- What no operation's pseudocode writes, and how it may change the status, the memory and the tracker's state: the
part of a frame that all operations share. -/
structure BodyFrame (s t : State) : Prop where
  seqPc : t.seqPc = s.seqPc
  ctrl : t.ctrl = s.ctrl
  fault : t.fault = s.fault
  rates : t.rates = s.rates
  inputs : t.inputs = s.inputs
  busReads : t.busReads = s.busReads
  schedule : t.schedule = s.schedule
  params : t.params = s.params
  halted : t.status.halted = s.status.halted
  cmdErr : t.status.cmdErr = s.status.cmdErr
  ovf : s.status.ovf = true → t.status.ovf = true
  tmodeBad : s.status.tmodeBad = true → t.status.tmodeBad = true
  memWf : s.mem.wf = true → t.mem.wf = true
  memWindow : s.mem.inWindow = true → t.mem.inWindow = true
  lockstep : s.lockstep → t.lockstep
  tracker : t.tracker.state = s.tracker.state ∨ (s.tracker.state = .unsynced ∧ t.tracker.state = .tracking) ∨
    (s.tracker.state = .tracking ∧ t.tracker.state = .locked)
  periodEvents : t.periodEvents = s.periodEvents ∨
    (t.tracker.boundary = true ∧ t.periodEvents = s.periodEvents ++ [⟨t.tracker.period, s.params.ftRestart⟩])

/-- A state that differs only in registers the shared frame does not speak of. -/
theorem BodyFrame.of_eqs {s t : State} (seqPc : t.seqPc = s.seqPc) (ctrl : t.ctrl = s.ctrl) (fault : t.fault = s.fault)
    (rates : t.rates = s.rates) (inputs : t.inputs = s.inputs) (busReads : t.busReads = s.busReads)
    (schedule : t.schedule = s.schedule) (params : t.params = s.params) (halted : t.status.halted = s.status.halted)
    (cmdErr : t.status.cmdErr = s.status.cmdErr) (ovf : s.status.ovf = true → t.status.ovf = true)
    (tmodeBad : s.status.tmodeBad = true → t.status.tmodeBad = true) (mem : t.mem = s.mem)
    (channel : t.channel = s.channel) (tracker : t.tracker.state = s.tracker.state)
    (periodEvents : t.periodEvents = s.periodEvents) : BodyFrame s t :=
  { seqPc, ctrl, fault, rates, inputs, busReads, schedule, params, halted, cmdErr, ovf, tmodeBad
    memWf := by rw [mem]; exact id
    memWindow := by rw [mem]; exact id
    lockstep := by unfold State.lockstep; rw [channel]; exact id
    tracker := .inl tracker
    periodEvents := .inl periodEvents }

theorem BodyFrame.refl (s : State) : BodyFrame s s := by
  apply BodyFrame.of_eqs <;> first | rfl | exact id

theorem BodyFrame.noteOvf (s : State) (o : Bool) : BodyFrame s (s.noteOvf o) := by
  apply BodyFrame.of_eqs <;> simp +contextual

theorem BodyFrame.putRes (s : State) (o : Bool) (w : Word) : BodyFrame s ((s.noteOvf o).putRes w) := by
  apply BodyFrame.of_eqs <;> simp +contextual

theorem BodyFrame.blockPop (s : State) : BodyFrame s s.blockPop := by
  apply BodyFrame.of_eqs <;> simp +contextual

/-- A PUSH keeps the cursors in lockstep (R37). -/
theorem State.pushSample_lockstep {s : State} (h : s.lockstep) : s.pushSample.lockstep := by
  unfold State.lockstep at *
  simp only [State.pushSample_channel, increment_val]
  apply BitVec.eq_of_toNat_eq
  have := congrArg BitVec.toNat h
  simp [BitVec.toNat_sub, BitVec.toNat_add] at *
  omega

/-- So does a POP. -/
theorem State.takeSample_lockstep {s : State} (h : s.lockstep) : s.takeSample.lockstep := by
  unfold State.lockstep at *
  simp only [State.takeSample_channel]
  apply BitVec.eq_of_toNat_eq
  have := congrArg BitVec.toNat h
  simp [BitVec.toNat_sub, BitVec.toNat_add] at *
  omega

theorem BodyFrame.pushSample (s : State) : BodyFrame s s.pushSample where
  seqPc := rfl
  ctrl := rfl
  fault := rfl
  rates := rfl
  inputs := rfl
  busReads := rfl
  schedule := rfl
  params := rfl
  halted := rfl
  cmdErr := rfl
  ovf := by simp +contextual
  tmodeBad := id
  memWf := State.pushSample_wf
  memWindow := State.pushSample_inWindow
  lockstep := State.pushSample_lockstep
  tracker := .inl rfl
  periodEvents := .inl rfl

theorem BodyFrame.takeSample (s : State) : BodyFrame s s.takeSample where
  seqPc := rfl
  ctrl := rfl
  fault := rfl
  rates := rfl
  inputs := rfl
  busReads := rfl
  schedule := rfl
  params := rfl
  halted := rfl
  cmdErr := rfl
  ovf := by simp +contextual
  tmodeBad := id
  memWf := id
  memWindow := id
  lockstep := State.takeSample_lockstep
  tracker := .inl rfl
  periodEvents := .inl rfl

theorem BodyFrame.accumulateSample (s : State) : BodyFrame s s.accumulateSample := by
  apply BodyFrame.of_eqs <;> simp +contextual [State.accumulateSample]

theorem BodyFrame.integrateEnergy (s : State) : BodyFrame s s.integrateEnergy := by
  unfold State.integrateEnergy State.energyCarryStep
  dsimp only
  split <;> apply BodyFrame.of_eqs <;> simp +contextual

theorem BodyFrame.billCycle (s : State) : BodyFrame s s.billCycle := by
  unfold State.billCycle State.dollarCarryStep State.centCarryStep
  dsimp only
  split <;> split <;> apply BodyFrame.of_eqs <;> simp +contextual

theorem BodyFrame.estimatePf (s : State) : BodyFrame s s.estimatePf := by
  unfold State.estimatePf
  dsimp only
  split <;> apply BodyFrame.of_eqs <;> simp +contextual

theorem BodyFrame.finpBody (s : State) : BodyFrame s (finpBody s).state := by
  unfold Machine.finpBody
  split <;> apply BodyFrame.of_eqs <;> simp [Effect.state]

theorem BodyFrame.finrmsBody (s : State) : BodyFrame s (finrmsBody s).state := by
  unfold Machine.finrmsBody finrmsCurrent
  dsimp only
  split
  · exact BodyFrame.refl s
  · cases sqrtQ (meanUnsigned s.agg.sumV2 s.agg.count) s.agg.seedV (rmsIterations s.agg.rmsCold) with
    | fatal c o => exact BodyFrame.noteOvf s o
    | value r =>
      rw [Calc.andThen_value]
      generalize hu : (s.noteOvf r.ovf).publishVrms r.val = u
      have hf : BodyFrame s u := by subst hu; apply BodyFrame.of_eqs <;> simp +contextual
      have hc : u.channel = s.channel ∧ u.mem = s.mem ∧ u.tracker = s.tracker ∧ u.periodEvents = s.periodEvents := by
        subst hu; simp
      cases sqrtQ (meanUnsigned u.agg.sumI2 u.agg.count) u.agg.seedI (rmsIterations s.agg.rmsCold) <;>
        apply BodyFrame.of_eqs <;>
        simp +contextual [Effect.state, hf.seqPc, hf.ctrl, hf.fault, hf.rates, hf.inputs, hf.busReads, hf.schedule,
          hf.params, hf.halted, hf.cmdErr, hf.ovf, hf.tmodeBad, hc.1, hc.2.1, hc.2.2.1, hc.2.2.2]

theorem BodyFrame.ftstepBody (s : State) : BodyFrame s (ftstepBody s).state := by
  unfold Machine.ftstepBody
  dsimp only
  split
  · rename_i h
    exact
      { BodyFrame.refl s with
        tracker := .inr (.inl ⟨h, rfl⟩)
        periodEvents := .inl rfl }
  · rename_i h
    split
    · exact
        { BodyFrame.refl s with
          tracker := .inr (.inr ⟨h, rfl⟩)
          periodEvents := .inl rfl }
    · apply BodyFrame.of_eqs <;> simp [Effect.state]
  · rename_i h
    unfold lockedStep
    dsimp only
    split
    · split
      · unfold exitCrossing
        dsimp only
        split
        · apply BodyFrame.of_eqs <;> simp +contextual [Effect.state]
        · exact
            { seqPc := rfl, ctrl := rfl, fault := rfl, rates := rfl, inputs := rfl, busReads := rfl, schedule := rfl
              params := rfl, halted := rfl, cmdErr := rfl, tmodeBad := id, memWf := id, memWindow := id
              lockstep := id
              ovf := by simp +contextual [Effect.state]
              tracker := .inl rfl
              periodEvents := .inr ⟨rfl, rfl⟩ }
      · apply BodyFrame.of_eqs <;> simp +contextual [Effect.state]
    · apply BodyFrame.of_eqs <;> simp +contextual [Effect.state]

/-- An operation other than POP and PUSH leaves a suspended POP's hold alone. -/
structure HoldFrame (s t : State) : Prop where
  waiting : t.status.waiting = s.status.waiting
  popLifted : t.popLifted = s.popLifted

theorem HoldFrame.integrateEnergy (s : State) : HoldFrame s s.integrateEnergy := by
  unfold State.integrateEnergy State.energyCarryStep
  dsimp only
  split <;> constructor <;> simp

theorem HoldFrame.billCycle (s : State) : HoldFrame s s.billCycle := by
  unfold State.billCycle State.dollarCarryStep State.centCarryStep
  dsimp only
  split <;> split <;> constructor <;> simp

theorem HoldFrame.estimatePf (s : State) : HoldFrame s s.estimatePf := by
  unfold State.estimatePf
  dsimp only
  split <;> constructor <;> simp

theorem HoldFrame.finpBody (s : State) : HoldFrame s (finpBody s).state := by
  unfold Machine.finpBody
  split <;> constructor <;> rfl

theorem HoldFrame.finrmsBody (s : State) : HoldFrame s (finrmsBody s).state := by
  unfold Machine.finrmsBody finrmsCurrent
  dsimp only
  split
  · exact ⟨rfl, rfl⟩
  · cases sqrtQ (meanUnsigned s.agg.sumV2 s.agg.count) s.agg.seedV (rmsIterations s.agg.rmsCold) with
    | fatal c o => exact ⟨rfl, rfl⟩
    | value r =>
      rw [Calc.andThen_value]
      generalize hu : (s.noteOvf r.ovf).publishVrms r.val = u
      have hw : u.status.waiting = s.status.waiting ∧ u.popLifted = s.popLifted := by subst hu; simp
      cases sqrtQ (meanUnsigned u.agg.sumI2 u.agg.count) u.agg.seedI (rmsIterations s.agg.rmsCold) <;>
        exact ⟨hw.1, hw.2⟩

theorem HoldFrame.ftstepBody (s : State) : HoldFrame s (ftstepBody s).state := by
  unfold Machine.ftstepBody lockedStep exitCrossing
  dsimp only
  repeat' split
  all_goals exact ⟨rfl, rfl⟩

/-- How an operation that is not of format T can end: it completes, POP blocks, or the halt is taken. -/
inductive Ends (i : Instr) (s : State) : State → Prop where
  | completes (u : State) (h : BodyFrame s u)
      (hold : (i ≠ .pop ∧ HoldFrame s u) ∨ (i = .pop ∧ u.status.waiting = false ∧ u.popLifted = false) ∨
        (i = .push ∧ u.status.waiting = s.status.waiting ∧
          (u.popLifted = true → s.popLifted = true ∨ s.status.waiting = true))) : Ends i s u.advance
  | blocks (hi : i = .pop) : Ends i s s.blockPop
  | halts (u : State) (c : Cause) (h : BodyFrame s u) (hold : HoldFrame s u) : Ends i s (u.takeFatal i.opcode c)

/-- No operation but POP blocks. -/
theorem Ends.of_body {i : Instr} {s : State} {e : Effect} (hf : BodyFrame s e.state) (hh : HoldFrame s e.state)
    (hb : ∀ u, e ≠ .blocked u) (hi : i ≠ .pop) : Ends i s (e.finish i.opcode) := by
  cases e with
  | done u => exact .completes u hf (.inl ⟨hi, hh⟩)
  | blocked u => exact absurd rfl (hb u)
  | fatal c u => exact .halts u c hf hh

theorem finpBody_ne_blocked (s u : State) : finpBody s ≠ .blocked u := by
  unfold finpBody; split <;> simp

theorem finrmsBody_ne_blocked (s u : State) : finrmsBody s ≠ .blocked u := by
  unfold finrmsBody finrmsCurrent
  dsimp only
  split
  · simp
  · cases sqrtQ (meanUnsigned s.agg.sumV2 s.agg.count) s.agg.seedV (rmsIterations s.agg.rmsCold) with
    | fatal c o => simp
    | value r =>
      rw [Calc.andThen_value]
      generalize (s.noteOvf r.ovf).publishVrms r.val = u
      cases sqrtQ (meanUnsigned u.agg.sumI2 u.agg.count) u.agg.seedI (rmsIterations s.agg.rmsCold) <;> simp

theorem ftstepBody_ne_blocked (s u : State) : ftstepBody s ≠ .blocked u := by
  unfold ftstepBody lockedStep exitCrossing
  dsimp only
  repeat' split
  all_goals simp

/-- A primitive that goes to RES: it completes or takes the halt. -/
theorem Ends.of_calc {i : Instr} {s : State} (c : Calc) (hi : i ≠ .pop) :
    Ends i s ((c.andThen s fun w t => .done (t.putRes w)).finish i.opcode) := by
  cases c with
  | value r => exact .completes _ (BodyFrame.putRes s r.ovf r.val) (.inl ⟨hi, rfl, rfl⟩)
  | fatal c o => exact .halts _ c (BodyFrame.noteOvf s o) ⟨rfl, rfl⟩

/-- An operation not of format T, not halted, ends in one of three ways. -/
theorem exec_ends {i : Instr} {s t : State} (hi : i.romOnly = false) (hh : s.status.halted = false)
    (h : exec i s = .next t) : Ends i s t := by
  cases i with
  | nop => rw [exec_nop hh] at h; cases h; exact .completes s (BodyFrame.refl s) (.inl ⟨nofun, rfl, rfl⟩)
  | toq16 =>
    rw [exec_toq16 hh] at h; cases h
    exact .completes _ (by apply BodyFrame.of_eqs <;> simp) (.inl ⟨nofun, rfl, rfl⟩)
  | mul => rw [exec_mul hh] at h; cases h; exact .completes _ (BodyFrame.putRes _ _ _) (.inl ⟨nofun, rfl, rfl⟩)
  | mulu => rw [exec_mulu hh] at h; cases h; exact .completes _ (BodyFrame.putRes _ _ _) (.inl ⟨nofun, rfl, rfl⟩)
  | div => unfold exec execDiv at h; rw [operate_running _ _ hh] at h; cases h; exact Ends.of_calc _ nofun
  | divu => unfold exec execDivu at h; rw [operate_running _ _ hh] at h; cases h; exact Ends.of_calc _ nofun
  | sqrt n =>
    change execSqrt n s = _ at h
    unfold execSqrt at h; rw [operate_running _ _ hh] at h; cases h; exact Ends.of_calc _ nofun
  | push =>
    rw [exec_push hh] at h; cases h
    refine .completes _ (BodyFrame.pushSample s) (.inr (.inr ⟨rfl, rfl, ?_⟩))
    rw [State.pushSample_popLifted, Bool.or_eq_true, Bool.and_eq_true]
    exact Or.imp_right And.left
  | pop =>
    by_cases ha : s.channel.avail = 0
    · rw [exec_pop_block hh ha] at h; cases h; exact .blocks rfl
    · rw [exec_pop_take hh ha] at h; cases h
      exact .completes _ (BodyFrame.takeSample s) (.inr (.inl ⟨rfl, rfl, rfl⟩))
  | ftstep =>
    rw [exec_ftstep hh] at h; cases h
    exact Ends.of_body (BodyFrame.ftstepBody s) (HoldFrame.ftstepBody s) (ftstepBody_ne_blocked s) nofun
  | acc =>
    rw [exec_acc hh] at h; cases h; exact .completes _ (BodyFrame.accumulateSample s) (.inl ⟨nofun, rfl, rfl⟩)
  | finp =>
    rw [exec_finp hh] at h; cases h
    exact Ends.of_body (BodyFrame.finpBody s) (HoldFrame.finpBody s) (finpBody_ne_blocked s) nofun
  | finrms =>
    rw [exec_finrms hh] at h; cases h
    exact Ends.of_body (BodyFrame.finrmsBody s) (HoldFrame.finrmsBody s) (finrmsBody_ne_blocked s) nofun
  | fine =>
    rw [exec_fine hh] at h; cases h
    exact .completes _ (BodyFrame.integrateEnergy s) (.inl ⟨nofun, HoldFrame.integrateEnergy s⟩)
  | bill => rw [exec_bill hh] at h; cases h; exact .completes _ (BodyFrame.billCycle s) (.inl ⟨nofun, HoldFrame.billCycle s⟩)
  | finpf =>
    rw [exec_finpf hh] at h; cases h; exact .completes _ (BodyFrame.estimatePf s) (.inl ⟨nofun, HoldFrame.estimatePf s⟩)
  | bnb k => cases hi
  | jmp k => cases hi

/-- All that executing an operation can do: nothing while halted; a format T operation writes SEQ_PC in RUN mode and
is refused in DIRECT mode; any other ends as `Ends` says. -/
theorem exec_cases {i : Instr} {s t : State} (h : exec i s = .next t) :
    (s.status.halted = true ∧ t = s) ∨
    (s.status.halted = false ∧ s.ctrl.run = true ∧ ∃ k, t = { s with seqPc := k } ∧
      ((∃ a, i = .jmp a ∧ k = romTarget a) ∨
        (∃ a, i = .bnb a ∧ k = if s.tracker.boundary then s.seqPc + 1 else romTarget a))) ∨
    (s.status.halted = false ∧ s.ctrl.run = false ∧ i.romOnly = true ∧ t = s.cmdRefused) ∨
    (s.status.halted = false ∧ i.romOnly = false ∧ Ends i s t) := by
  by_cases hh : s.status.halted = true
  · rw [exec_halted i hh] at h; cases h; exact .inl ⟨hh, rfl⟩
  have hh : s.status.halted = false := by simpa using hh
  by_cases hi : i.romOnly = true
  · by_cases hr : s.ctrl.run = true
    · cases i <;> first | (simp only [Instr.romOnly, Bool.false_eq_true] at hi; done) | skip
      · rename_i a; rw [exec_bnb_run a hh hr] at h; cases h; exact .inr (.inl ⟨hh, hr, _, rfl, .inr ⟨a, rfl, rfl⟩⟩)
      · rename_i a; rw [exec_jmp_run a hh hr] at h; cases h; exact .inr (.inl ⟨hh, hr, _, rfl, .inl ⟨a, rfl, rfl⟩⟩)
    · have hr : s.ctrl.run = false := by simpa using hr
      cases i <;> first | (simp only [Instr.romOnly, Bool.false_eq_true] at hi; done) | skip
      · rename_i a; rw [exec_bnb_direct a hh hr] at h; cases h; exact .inr (.inr (.inl ⟨hh, hr, hi, rfl⟩))
      · rename_i a; rw [exec_jmp_direct a hh hr] at h; cases h; exact .inr (.inr (.inl ⟨hh, hr, hi, rfl⟩))
  · exact .inr (.inr (.inr ⟨hh, by simpa using hi, exec_ends (by simpa using hi) hh h⟩))

/-! ## The emitted events (60_exceptions R226) -/

/-- FTSTEP's pseudocode emits one event if it sets BOUNDARY, and none otherwise. -/
theorem ftstepBody_periodEvents (s : State) :
    (ftstepBody s).state.periodEvents = if (ftstepBody s).state.tracker.boundary
      then s.periodEvents ++ [⟨(ftstepBody s).state.tracker.period, s.params.ftRestart⟩] else s.periodEvents := by
  unfold ftstepBody lockedStep exitCrossing
  dsimp only
  repeat' split
  all_goals simp_all [Effect.state]

theorem integrateEnergy_periodEvents (s : State) : s.integrateEnergy.periodEvents = s.periodEvents := by
  unfold State.integrateEnergy State.energyCarryStep
  dsimp only
  split <;> rfl

theorem billCycle_periodEvents (s : State) : s.billCycle.periodEvents = s.periodEvents := by
  unfold State.billCycle State.dollarCarryStep State.centCarryStep
  dsimp only
  split <;> split <;> rfl

theorem estimatePf_periodEvents (s : State) : s.estimatePf.periodEvents = s.periodEvents := by
  unfold State.estimatePf
  dsimp only
  split <;> rfl

theorem finpBody_periodEvents (s : State) : (finpBody s).state.periodEvents = s.periodEvents := by
  unfold finpBody
  split <;> rfl

theorem finrmsBody_periodEvents (s : State) : (finrmsBody s).state.periodEvents = s.periodEvents := by
  unfold finrmsBody finrmsCurrent
  dsimp only
  split
  · rfl
  · cases sqrtQ (meanUnsigned s.agg.sumV2 s.agg.count) s.agg.seedV (rmsIterations s.agg.rmsCold) with
    | fatal c o => rfl
    | value r =>
      rw [Calc.andThen_value]
      generalize hu : (s.noteOvf r.ovf).publishVrms r.val = u
      have he : u.periodEvents = s.periodEvents := by subst hu; rfl
      cases sqrtQ (meanUnsigned u.agg.sumI2 u.agg.count) u.agg.seedI (rmsIterations s.agg.rmsCold) <;> exact he

/-- An operation's end emits nothing beyond its body. -/
theorem Effect.finish_periodEvents (op : BitVec 8) (e : Effect) :
    (e.finish op).periodEvents = e.state.periodEvents := by
  cases e <;> simp [Effect.finish, Effect.state]

theorem Effect.finish_tracker (op : BitVec 8) (e : Effect) : (e.finish op).tracker = e.state.tracker := by
  cases e <;> simp [Effect.finish, Effect.state]

/-- So does an FTSTEP that executes. -/
theorem exec_ftstep_periodEvents {s t : State} (hh : s.status.halted = false) (h : exec .ftstep s = .next t) :
    t.periodEvents = if t.tracker.boundary then s.periodEvents ++ [⟨t.tracker.period, s.params.ftRestart⟩]
      else s.periodEvents := by
  rw [exec_ftstep hh] at h; cases h
  rw [Effect.finish_periodEvents, Effect.finish_tracker, ftstepBody_periodEvents]

/-- No other operation emits an event. -/
theorem exec_periodEvents {i : Instr} {s t : State} (hi : i ≠ .ftstep) (h : exec i s = .next t) :
    t.periodEvents = s.periodEvents := by
  by_cases hh : s.status.halted = true
  · rw [exec_halted i hh] at h; cases h; rfl
  have hh : s.status.halted = false := by simpa using hh
  have calc_ (c : Calc) (op : BitVec 8) :
      ((c.andThen s fun w t => .done (t.putRes w)).finish op).periodEvents = s.periodEvents := by
    rw [Effect.finish_periodEvents]; cases c <;> rfl
  cases i with
  | ftstep => exact absurd rfl hi
  | nop => rw [exec_nop hh] at h; cases h; simp
  | toq16 => rw [exec_toq16 hh] at h; cases h; simp
  | mul => rw [exec_mul hh] at h; cases h; simp
  | mulu => rw [exec_mulu hh] at h; cases h; simp
  | div => unfold exec execDiv at h; rw [operate_running _ _ hh] at h; cases h; exact calc_ _ _
  | divu => unfold exec execDivu at h; rw [operate_running _ _ hh] at h; cases h; exact calc_ _ _
  | sqrt n =>
    change execSqrt n s = _ at h
    unfold execSqrt at h; rw [operate_running _ _ hh] at h; cases h; exact calc_ _ _
  | push => rw [exec_push hh] at h; cases h; simp
  | pop =>
    by_cases ha : s.channel.avail = 0
    · rw [exec_pop_block hh ha] at h; cases h; rfl
    · rw [exec_pop_take hh ha] at h; cases h; simp
  | acc => rw [exec_acc hh] at h; cases h; simp
  | finp => rw [exec_finp hh] at h; cases h; rw [Effect.finish_periodEvents, finpBody_periodEvents]
  | finrms => rw [exec_finrms hh] at h; cases h; rw [Effect.finish_periodEvents, finrmsBody_periodEvents]
  | fine => rw [exec_fine hh] at h; cases h; rw [State.advance_periodEvents, integrateEnergy_periodEvents]
  | bill => rw [exec_bill hh] at h; cases h; rw [State.advance_periodEvents, billCycle_periodEvents]
  | finpf => rw [exec_finpf hh] at h; cases h; rw [State.advance_periodEvents, estimatePf_periodEvents]
  | bnb k =>
    by_cases hr : s.ctrl.run = true
    · rw [exec_bnb_run k hh hr] at h; cases h; rfl
    · rw [exec_bnb_direct k hh (by simpa using hr)] at h; cases h; rfl
  | jmp k =>
    by_cases hr : s.ctrl.run = true
    · rw [exec_jmp_run k hh hr] at h; cases h; rfl
    · rw [exec_jmp_direct k hh (by simpa using hr)] at h; cases h; rfl

end Sys2Proof.Machine
end

