-- ==== Sys2Proof/Laws/PerInstr.lean ====
section
/-! SUPPORT. One lemma per operation about its encoding (30_encoding R80, R83, R90), and that the opcode map gives no
opcode twice. -/

namespace Sys2Proof

/-- No two rows of the opcode map share an opcode (R83). -/
theorem opcodeTable_opcodes_distinct : (opcodeTable.map OpcodeRow.opcode).Nodup := by decide

/-- The fields of a word built as R90 says. -/
theorem fields_of_word (op arg : BitVec 8) :
    opcodeField (op.setWidth 32 ||| (arg.setWidth 32 <<< 8)) = op ∧
      argField (op.setWidth 32 ||| (arg.setWidth 32 <<< 8)) = arg ∧
      zeroField (op.setWidth 32 ||| (arg.setWidth 32 <<< 8)) = 0 := by
  unfold opcodeField argField zeroField
  refine ⟨?_, ?_, ?_⟩
  · apply BitVec.eq_of_getLsbD_eq
    intro i hi
    simp [show i < 32 by omega, hi]
  · apply BitVec.eq_of_getLsbD_eq
    intro i hi
    simp [show 8 + i < 32 by omega, hi, show 8 + i - 8 = i by omega]
  · apply BitVec.eq_of_getLsbD_eq
    intro i hi
    have h : op.getLsbD (16 + i) = false := BitVec.getLsbD_of_ge _ _ (by omega)
    have h' : arg.getLsbD (16 + i - 8) = false := BitVec.getLsbD_of_ge _ _ (by omega)
    simp [BitVec.getLsbD_setWidth, h, h']

/-- The three fields of an operation's word are its opcode, its `arg` and zero. -/
def Laws.EncodeFields.Statement (i : Instr) : Prop :=
  opcodeField (encode i) = i.opcode ∧ argField (encode i) = i.arg ∧ zeroField (encode i) = 0

theorem Laws.EncodeFields.of_encode (i : Instr) : Laws.EncodeFields.Statement i := fields_of_word i.opcode i.arg

theorem Laws.EncodeFields.nop : Laws.EncodeFields.Statement .nop := of_encode _
theorem Laws.EncodeFields.toq16 : Laws.EncodeFields.Statement .toq16 := of_encode _
theorem Laws.EncodeFields.mul : Laws.EncodeFields.Statement .mul := of_encode _
theorem Laws.EncodeFields.mulu : Laws.EncodeFields.Statement .mulu := of_encode _
theorem Laws.EncodeFields.div : Laws.EncodeFields.Statement .div := of_encode _
theorem Laws.EncodeFields.divu : Laws.EncodeFields.Statement .divu := of_encode _
theorem Laws.EncodeFields.sqrt (n : BitVec 8) : Laws.EncodeFields.Statement (.sqrt n) := of_encode _
theorem Laws.EncodeFields.push : Laws.EncodeFields.Statement .push := of_encode _
theorem Laws.EncodeFields.pop : Laws.EncodeFields.Statement .pop := of_encode _
theorem Laws.EncodeFields.ftstep : Laws.EncodeFields.Statement .ftstep := of_encode _
theorem Laws.EncodeFields.acc : Laws.EncodeFields.Statement .acc := of_encode _
theorem Laws.EncodeFields.finp : Laws.EncodeFields.Statement .finp := of_encode _
theorem Laws.EncodeFields.finrms : Laws.EncodeFields.Statement .finrms := of_encode _
theorem Laws.EncodeFields.fine : Laws.EncodeFields.Statement .fine := of_encode _
theorem Laws.EncodeFields.bill : Laws.EncodeFields.Statement .bill := of_encode _
theorem Laws.EncodeFields.finpf : Laws.EncodeFields.Statement .finpf := of_encode _
theorem Laws.EncodeFields.bnb (t : BitVec 8) : Laws.EncodeFields.Statement (.bnb t) := of_encode _
theorem Laws.EncodeFields.jmp (t : BitVec 8) : Laws.EncodeFields.Statement (.jmp t) := of_encode _

end Sys2Proof
end

