-- ==== Sys2Proof/Tests/Slice0.lean ====
section
/-! SUPPORT. The model's own tests: well-formedness, decoding, one step per operation with results from the spec's test
vectors (95_test_vectors.md, whose section each comment names), and a witness for every statement with hypotheses. -/

namespace Sys2Proof.Tests

open Sys2Proof Sys2Proof.Machine Sys2Proof.Statements

/-! ## Well-formedness and decoding -/

theorem test_wf_accepts_target_9 : (Instr.bnb 9).wf = true ∧ (Instr.jmp 9).wf = true := by decide
theorem test_wf_refuses_bnb_10 : (Instr.bnb 10).wf = false := by decide
theorem test_wf_refuses_jmp_10 : (Instr.jmp 10).wf = false := by decide
theorem test_isRomIndex_refuses_255 : isRomIndex 255 = false := by decide

/-! Words written out bit by bit from R80 and R83: zero field, `arg`, opcode. -/

theorem test_decode_nop : decode 0b0000000000000000_00000000_00000000 = .ok .nop := by decide
theorem test_decode_toq16 : decode 0b0000000000000000_00000000_00000001 = .ok .toq16 := by decide
theorem test_decode_mul : decode 0b0000000000000000_00000000_00000010 = .ok .mul := by decide
theorem test_decode_mulu : decode 0b0000000000000000_00000000_00000011 = .ok .mulu := by decide
theorem test_decode_div : decode 0b0000000000000000_00000000_00000100 = .ok .div := by decide
theorem test_decode_divu : decode 0b0000000000000000_00000000_00000101 = .ok .divu := by decide
theorem test_decode_sqrt : decode 0b0000000000000000_00001111_00000110 = .ok (.sqrt 15) := by decide
theorem test_decode_push : decode 0b0000000000000000_00000000_00010000 = .ok .push := by decide
theorem test_decode_pop : decode 0b0000000000000000_00000000_00010001 = .ok .pop := by decide
theorem test_decode_ftstep : decode 0b0000000000000000_00000000_00100000 = .ok .ftstep := by decide
theorem test_decode_acc : decode 0b0000000000000000_00000000_00110000 = .ok .acc := by decide
theorem test_decode_finp : decode 0b0000000000000000_00000000_00110001 = .ok .finp := by decide
theorem test_decode_finrms : decode 0b0000000000000000_00000000_00110010 = .ok .finrms := by decide
theorem test_decode_fine : decode 0b0000000000000000_00000000_01000000 = .ok .fine := by decide
theorem test_decode_bill : decode 0b0000000000000000_00000000_01010000 = .ok .bill := by decide
theorem test_decode_finpf : decode 0b0000000000000000_00000000_01100000 = .ok .finpf := by decide
theorem test_decode_bnb : decode 0b0000000000000000_00000000_01110000 = .ok (.bnb 0) := by decide
theorem test_decode_jmp : decode 0b0000000000000000_00001001_01110001 = .ok (.jmp 9) := by decide

/-- The unexecutable words of section 2.8. -/
theorem test_decode_refuses :
    decode 0x00000102 = .error .argNotZero ∧ decode 0x00010002 = .error .zeroFieldNonzero ∧
    decode 0x00000007 = .error .reservedOpcode ∧ decode 0x000000FF = .error .reservedOpcode ∧
    decode 0x00000A70 = .error .targetOutOfRange := by decide

theorem test_decodeTableWord : decodeTableWord 32 0x00000106 = some (.sqrt 1) ∧ decodeTableWord 8 0x02 = some .mul ∧
    decodeTableWord 32 0x00000A71 = none := by decide

/-! ## Small states -/

/-- The state an operation answers with. -/
def after (i : Instr) (s : State) : State :=
  match exec i s with
  | .next t => t
  | .fault _ => s
  | .refused _ => s

/-- The state a step answers with. -/
def stepped (s : State) : State :=
  match step s with
  | .next t => t
  | .fault _ => s
  | .refused _ => s

/-- Reset with two operands. -/
def operands (a b : Word) : State := { State.reset with regs := { State.reset.regs with opa := a, opb := b } }

/-- Reset with a scheduled move. -/
def facing (e : Event) : State := { State.reset with schedule := [e] }

/-- RUN mode at a ROM index. -/
def runAt (pc : BitVec 4) : State := { State.reset with ctrl := { run := true, testMode := false }, seqPc := pc }

/-- One sample pair of section 2.2.2 delivered. -/
def withSample : State := stepped (facing (.tick 0xFBBE 0xFEBF))

/-- A suspended POP. -/
def suspended : State := after .pop State.reset

/-- A halted machine. -/
def halted : State := after .div (operands 1 0)

/-- LOCKED with the flag set, at a crossing (section 2.3.3). -/
def atExit (old count entry prev cur : Word) : State :=
  { State.reset with
    regs := { State.reset.regs with rV := cur }
    tracker := { State.reset.tracker with
      state := .locked, toggle := true, prev := prev, count := count, entry := entry, period := old } }

/-- A tracker in a state, with the previous and this sample. -/
def tracking (st : TrackState) (count prev cur : Word) : State :=
  { State.reset with
    regs := { State.reset.regs with rV := cur }
    tracker := { State.reset.tracker with state := st, prev := prev, count := count } }

/-- A cycle's sums. -/
def sums (v2 i2 p count : Word) : State :=
  { State.reset with agg := { State.reset.agg with sumV2 := v2, sumI2 := i2, sumP := p, count := count } }

/-! ## One step per operation (section 2 of the vectors) -/

theorem test_nop_advances_in_run_mode : (after .nop (runAt 2)).seqPc = 3 ∧ (after .nop State.reset).seqPc = 0 := by
  decide

/-- 2.1.1 -/
theorem test_toq16_ignores_high_half : (after .toq16 (operands 0x12348000 0)).regs.res = 0x80000000 := by decide

/-- 2.1.2 -/
theorem test_mul_floors : (after .mul (operands 0xFFFFFFFF 0x00008000)).regs.res = 0xFFFFFFFF ∧
    (after .mul (operands 0xFFFD0000 0x00028000)).regs.res = 0xFFF88000 := by decide
theorem test_mul_overflow : (after .mul (operands 0x80000000 0x80000000)).regs.res = 0 ∧
    (after .mul (operands 0x80000000 0x80000000)).status.ovf = true := by decide

/-- 2.1.3 -/
theorem test_mulu_overflow : (after .mulu (operands 0xFFFFFFFF 0xFFFFFFFF)).regs.res = 0xFFFE0000 ∧
    (after .mulu (operands 0xFFFFFFFF 0xFFFFFFFF)).status.ovf = true := by decide

/-- 2.1.4 -/
theorem test_div_toward_zero : (after .div (operands 0xFFFF0000 0x00030000)).regs.res = 0xFFFFAAAB ∧
    (after .div (operands 0x80000000 0xFFFFFFFF)).status.ovf = true := by decide

/-- 2.9 -/
theorem test_div_zero_halts : (after .div (operands 0 0)).readReg .fault = 0x00000401 ∧
    (after .div (operands 0 0)).status.halted = true := by decide

/-- 2.1.5 -/
theorem test_divu_overflow : (after .divu (operands 0xFFFFFFFF 0x00008000)).regs.res = 0xFFFFFFFE ∧
    (after .divu (operands 0xFFFFFFFF 0x00008000)).status.ovf = true := by decide

/-- 2.1.7 -/
theorem test_sqrt_iterations : (after (.sqrt 5) (operands 0x00020000 0x00010000)).regs.res = 0x00016A09 ∧
    (after (.sqrt 0) (operands 0x00090000 0x00070000)).regs.res = 0x00070000 := by decide
theorem test_sqrt_fatal : (after (.sqrt 2) (operands 0 1)).readReg .fault = 0x00000601 ∧
    (after (.sqrt 0) (operands 1 0)).readReg .fault = 0x00000603 := by decide

/-- 2.2.2 -/
theorem test_tick_stores : withSample.vbuf 0 = 0xFBBE ∧ withSample.ibuf 0 = 0xFEBF ∧ withSample.channel.pcur = 1 ∧
    withSample.channel.avail = 1 := by decide
theorem test_pop_converts : (after .pop withSample).regs.rV = 0xFFDEBC60 ∧ (after .pop withSample).regs.rI = 0xFFFFE6EC ∧
    (after .pop withSample).channel.avail = 0 := by decide
theorem test_pop_blocks : suspended.status.waiting = true ∧ suspended.channel.ccur = 0 := by decide

/-- 2.2.1, a conversion that overflows: range 0x7FFF0000, ADC_MAX 1, code 2 -/
theorem test_conv_overflow :
    (conv { Params.testValues with adcVoltageRange := 0x7FFF0000, adcMaxLessOne := 0 } 2 1).ovf = true := by decide

/-- The window's bytes lie low byte first (log 5): the tick's 0xFBBE in VBUF[0]. -/
theorem test_push_bytes : (after .push { State.reset with inputs := { State.reset.inputs with adcV := 0xFBBE } }).mem =
    [(0x100, 0xBE), (0x101, 0xFB)] := by decide

/-- 2.3.3 -/
theorem test_ftstep_boundary :
    (after .ftstep (atExit 1250000 15 747 0xFFDEBC60 0x00628324)).tracker.period = 1250028 ∧
    (after .ftstep (atExit 1250000 15 747 0xFFDEBC60 0x00628324)).totals.freq = 499 ∧
    (after .ftstep (atExit 1250000 15 747 0xFFDEBC60 0x00628324)).periodEvents = [⟨1250028, true⟩] := by decide
theorem test_ftstep_zero_divisor :
    (after .ftstep (atExit 15 15 0 0xFFFFFFFF 0)).readReg .fault = 0x00002001 ∧
    (after .ftstep (atExit 15 15 0 0xFFFFFFFF 0)).readReg .ftCtl = 6 := by decide

/-- 2.4.1 -/
theorem test_acc_squares :
    (after .acc { State.reset with regs := { State.reset.regs with rV := 0xFFDEBC60, rI := 0xFFFFE6EC } }).agg =
      { State.reset.agg with sumV2 := 0x000B10A6, sumI2 := 0x0000F5AB, sumP := 0x00034233, count := 1 } := by decide
theorem test_acc_overflow :
    (after .acc { State.reset with regs := { State.reset.regs with rV := 0x0A000000, rI := 0x00010000 } }).agg.sumV2 = 0 ∧
    (after .acc { State.reset with regs := { State.reset.regs with rV := 0x0A000000, rI := 0x00010000 } }).status.ovf =
      true := by decide

/-- 2.4.2 -/
theorem test_finp_toward_zero : (after .finp (sums 0 0 0xFFFFFFF9 2)).totals.power = 0xFFFFFFFD ∧
    (after .finp (sums 0 0 0 0)).readReg .fault = 0x00003102 := by decide

/-- 2.4.3 -/
theorem test_finrms_cold : (after .finrms (sums 0x24000000 0x06400000 0 16)).totals.vrms = 0x00F00000 ∧
    (after .finrms (sums 0x24000000 0x06400000 0 16)).totals.irms = 0x00010000 := by decide
theorem test_finrms_warm :
    (after .finrms { sums 0x19000000 0x06400000 0 16 with
      agg := { (sums 0x19000000 0x06400000 0 16).agg with seedV := 0x00180000, rmsCold := false } }).agg.seedV =
      0x00145555 := by decide

/-- 2.5: power, period, samples, energy accumulated before -/
def energyState (power period n eAcc : Word) : State :=
  { State.reset with
    totals := { State.reset.totals with power := power }
    tracker := { State.reset.tracker with periodDone := period }
    agg := { State.reset.agg with nDone := n }
    energy := { State.reset.energy with eAcc := eAcc } }

theorem test_fine_negative : (after .fine (energyState 0xFF100000 1250000 32 0)).energy.eCycle = 0xFFF666D0 := by decide
theorem test_fine_carry : (after .fine (energyState 0x00F00000 1250000 32 0x0E0666D0)).energy.eAcc = 0 ∧
    (after .fine (energyState 0x00F00000 1250000 32 0x0E0666D0)).totals.energy = 0x41 ∧
    (after .fine (energyState 0x00F00000 1250000 32 0x0E0666CF)).energy.eAcc = 0x0E0FFFFF := by decide

/-- 2.6: mode, hour, cycle energy, millicents and cents accumulated before -/
def billState (mode : BitVec 16) (hour : BitVec 24) (mcAcc cents : Word) : State :=
  { State.reset with
    inputs := { State.reset.inputs with tariffMode := mode, wcHms := hour <<< 16 }
    rates := { t1Peak := 0x00190000, t1Shoulder := 0x00140000, t1Offpeak := 0x000A0000, t2Flat := 0x00190000, t3Flat := 0 }
    energy := { State.reset.energy with eCycle := 0x01680000 }
    bill := { State.reset.bill with mcAcc := mcAcc, cents := cents } }

/-- 2.6.1: hour 20 is peak, hour 21 shoulder, hour 255 off-peak; mode 7 is billed as mode 1 and noted -/
theorem test_bill_rates : (after .bill (billState 1 20 0 0)).bill.mcCycle = 0x00028000 ∧
    (after .bill (billState 1 21 0 0)).bill.mcCycle = 0x00020000 ∧
    (after .bill (billState 1 255 0 0)).bill.mcCycle = 0x00010000 ∧
    (after .bill (billState 7 15 0 0)).status.tmodeBad = true := by decide
/-- 2.6.2 -/
theorem test_bill_carries : (after .bill (billState 2 0 0x03E58000 0)).bill.mcAcc = 0x03E80000 ∧
    (after .bill (billState 2 0 0x03E80000 99)).bill.cents = 100 ∧
    (after .bill (billState 2 0 0x03E80000 100)).bill.cents = 0 ∧
    (after .bill (billState 2 0 0x03E80000 100)).totals.cost = 0x00010000 := by decide

/-- 2.7: power, voltage, current -/
def pfState (power vrms irms : Word) : State :=
  { State.reset with
    totals := { State.reset.totals with power := power, vrms := vrms, irms := irms, pf := 0x1234 } }

theorem test_finpf_signed : (after .finpf (pfState 0xFF880000 0x00F00000 0x00010000)).totals.pf = 0xFFFF8000 ∧
    (after .finpf (pfState 5 0x100 0xFF)).totals.pf = 0x1234 := by decide
theorem test_finpf_overflow : (after .finpf (pfState 0x00010000 0xFFFF0000 0x00010000)).totals.pf = 0xFFFF0000 ∧
    (after .finpf (pfState 0x00010000 0xFFFF0000 0x00010000)).status.ovf = true := by decide

/-- R199, R195 -/
theorem test_bnb_branches_without_boundary : (after (.bnb 0) (runAt 3)).seqPc = 0 ∧
    (after (.bnb 0)
      { runAt 3 with tracker := { State.reset.tracker with boundary := true } }).seqPc = 4 := by decide
theorem test_jmp_to_zero : (after (.jmp 0) (runAt 9)).seqPc = 0 := by decide

/-- 2.9: wait failure of a suspended CMD POP: STATUS 0x11, FAULT 0x00001104 -/
theorem test_wait_fail : (stepped { suspended with schedule := [.waitFail] }).readReg .status = 0x11 ∧
    (stepped { suspended with schedule := [.waitFail] }).readReg .fault = 0x00001104 := by decide

/-- 2.8: a refused CMD write leaves STATUS 0x08 -/
theorem test_cmd_err : (stepped (facing (.busWrite 0x0C 0x00000102))).readReg .status = 0x08 ∧
    (stepped (facing (.busWrite 0x0C 0x00000070))).readReg .status = 0x08 := by decide

theorem test_withFetchWord_runs : (step (State.reset.withFetchWord 32 0x00000971) = .next ((State.reset.withFetchWord 32
      0x00000971).popped.cmdRefused)) ∧
    stepped (State.reset.withFetchWord 32 0x00000071) =
      { runAt 0 with schedule := [] } := by
  refine ⟨rfl, by decide⟩

/-! ## Witnesses: states and operands that meet each statement's hypotheses, one conjunct per clause or boundary -/

/-- StepRunsTheWordWrittenToCmd -/
theorem witness_step_cmd : (facing (.busWrite 0x0C 2)).schedule = [.busWrite 0x0C 2] ∧
    (facing (.busWrite 0x0C 2)).status.halted = false ∧ (facing (.busWrite 0x0C 2)).ctrl.run = false ∧
    (facing (.busWrite 0x0C 2)).status.waiting = false ∧ decode 2 = .ok .mul := by decide

/-- StepRunsTheRomOperation: the first and the last index -/
theorem witness_step_rom : (runAt 0).nextMove = .consumer ∧ (runAt 0).status.halted = false ∧
    (runAt 0).status.waiting = false ∧ (runAt 0).ctrl.run = true ∧
    ([Instr.pop, .ftstep, .acc, .bnb 0, .finp, .finrms, .fine, .bill, .finpf, .jmp 0] : List Instr)[(runAt 0).seqPc.toNat]? =
      some .pop ∧
    ([Instr.pop, .ftstep, .acc, .bnb 0, .finp, .finrms, .fine, .bill, .finpf, .jmp 0] : List Instr)[(runAt 9).seqPc.toNat]? =
      some (.jmp 0) := by decide

/-- RefusedCmdWriteOnlySetsCmdErr: an unexecutable word, a format T word, RUN mode, a waiting POP; halted -/
theorem witness_cmd_refused : (facing (.busWrite 0x0C 0x102)).schedule = [.busWrite 0x0C 0x102] ∧
    (facing (.busWrite 0x0C 0x102)).status.halted = false ∧ decode 0x102 = .error .argNotZero ∧
    decode 0x70 = .ok (.bnb 0) ∧ decode 0x971 = .ok (.jmp 9) ∧ (runAt 0).status.halted = false ∧
    (runAt 0).ctrl.run = true ∧ suspended.status.halted = false ∧ suspended.status.waiting = true ∧
    halted.status.halted = true := by decide

/-- Toq16, Mul, Mulu, Div, Divu, Nop, FtstepWithoutACrossing's first form, Acc, Fine, Bill, Finpf: a state not halted, with
a divisor -/
theorem witness_running : (operands 0x00010000 0x00030000).status.halted = false ∧
    (operands 0x00010000 0x00030000).regs.opb ≠ 0 ∧ (operands 0x80000000 0xFFFFFFFF).status.halted = false ∧
    (operands 0x80000000 0xFFFFFFFF).regs.opb ≠ 0 := by decide

/-- DivRoundsTowardZero, DivuDividesUnsigned: a zero divisor -/
theorem witness_zero_divisor : (operands 0 0).status.halted = false ∧ (operands 0 0).regs.opb = 0 := by decide

/-- The iterates of section 2.1.7. -/
def iterates (k : Nat) : Word := [0x00010000, 0x00018000, 0x00016AAA].getD k 0

/-- SqrtRunsExactlyNIterations: two iterations, and none -/
theorem witness_sqrt : (operands 0x00020000 0x00010000).status.halted = false ∧
    (operands 0x00020000 0x00010000).regs.opb ≠ 0 ∧ IsNewtonRun 0x00020000 0x00010000 2 iterates ∧
    IsNewtonRun 0x00020000 0x00010000 0 iterates := by
  unfold IsNewtonRun; decide

/-- SqrtRunsExactlyNIterations: a zero guess; a zero iterate with one iteration left -/
theorem witness_sqrt_halts : (operands 1 0).status.halted = false ∧ (operands 1 0).regs.opb = 0 ∧
    (operands 0 1).status.halted = false ∧ (operands 0 1).regs.opb ≠ 0 ∧ 1 < (2 : BitVec 8).toNat ∧
    IsNewtonRun 0 1 1 (fun k => if k = 0 then 1 else 0) := by
  unfold IsNewtonRun; decide

/-- MulOfDivStaysWithinTheDivisor, SqrtOfSmallIntegersIsExactToOneLsb -/
theorem witness_q16 : 0 < (0x00010000 : Word).toInt ∧ 0 < (0x00030000 : Word).toInt ∧
    (divQ 0x00010000 0x00030000).ovf = false ∧ (1 : Nat) ≤ 1 ∧ 1000 ≤ 1000 := by decide

/-- PushStoresAtTheProducersCursor: an empty queue, and a count about to wrap -/
theorem witness_push : State.reset.mem.wf = true ∧ State.reset.status.halted = false ∧
    ({ State.reset with channel := { State.reset.channel with avail := 0xFFFFFFFF } }).status.halted = false := by decide

/-- PopTakesTheSampleAtTheConsumersCursor, PopWithoutASampleBlocks -/
theorem witness_pop : withSample.status.halted = false ∧ withSample.channel.avail ≠ 0 ∧
    State.reset.status.halted = false ∧ State.reset.channel.avail = 0 := by decide

/-- A suspended CMD POP lifted by a tick, whose AVAIL the host then sets to 0. -/
def lifted : State := stepped { stepped { suspended with schedule := [.tick 1 1] } with schedule := [.busWrite 0x16 0] }

/-- SuspendedPopProceedsOnlyAfterAPush: before and after the PUSH; not lifted with AVAIL set by the host; lifted with
AVAIL = 0 -/
theorem witness_suspended : suspended.nextMove = .consumer ∧ suspended.status.halted = false ∧
    suspended.status.waiting = true ∧ suspended.popLifted = false ∧
    (stepped { suspended with schedule := [.tick 1 1] }).nextMove = .consumer ∧
    (stepped { suspended with schedule := [.tick 1 1] }).status.halted = false ∧
    (stepped { suspended with schedule := [.tick 1 1] }).status.waiting = true ∧
    (stepped { suspended with schedule := [.tick 1 1] }).popLifted = true ∧
    (stepped { suspended with schedule := [.tick 1 1] }).channel.avail ≠ 0 ∧
    (stepped { suspended with schedule := [.busWrite 0x16 1] }).popLifted = false ∧
    (stepped { suspended with schedule := [.busWrite 0x16 1] }).status.waiting = true ∧
    (stepped { suspended with schedule := [.busWrite 0x16 1] }).channel.avail ≠ 0 ∧
    lifted.nextMove = .consumer ∧ lifted.status.halted = false ∧ lifted.status.waiting = true ∧
    lifted.popLifted = true ∧ lifted.channel.avail = 0 := by decide

/-- TickDeliversOneSamplePair: halted, and not; a suspended POP, whose hold the tick lifts, and one whose AVAIL wraps to
0, whose hold it does not -/
theorem witness_tick : (facing (.tick 0xFBBE 0xFEBF)).schedule = [.tick 0xFBBE 0xFEBF] ∧
    (facing (.tick 0xFBBE 0xFEBF)).mem.wf = true ∧ (facing (.tick 0xFBBE 0xFEBF)).status.halted = false ∧
    halted.status.halted = true ∧ suspended.status.halted = false ∧ suspended.mem.wf = true ∧
    suspended.status.waiting = true ∧ suspended.popLifted = false ∧
    ({ suspended with schedule := [.tick 1 1] }).schedule = [.tick 1 1] ∧
    (stepped { suspended with schedule := [.tick 1 1] }).popLifted = true ∧
    (stepped { suspended with
      schedule := [.tick 1 1], channel := { suspended.channel with avail := 0xFFFFFFFF } }).popLifted = false := by decide

/-- WaitFailHaltsASuspendedPopOnly: suspended; halted; not waiting -/
theorem witness_wait_fail : ({ suspended with schedule := [.waitFail] }).schedule = [.waitFail] ∧
    suspended.status.halted = false ∧ suspended.status.waiting = true ∧ halted.status.halted = true ∧
    State.reset.status.waiting = false := by decide

/-- WindowIsAFifoInLockstep: an empty queue and one of 15 for PUSH, a queue of one for POP -/
theorem witness_fifo : State.reset.mem.wf = true ∧ State.reset.status.halted = false ∧ State.reset.lockstep ∧
    State.reset.channel.avail.toNat ≤ 15 ∧
    ({ State.reset with channel := { pcur := 15, ccur := 0, avail := 15 } }).lockstep ∧
    withSample.mem.wf = true ∧ withSample.lockstep ∧ withSample.channel.avail ≠ 0 := by
  unfold State.lockstep; decide

/-- LockstepIsKept: RUN mode; DIRECT mode with a CMD write -/
theorem witness_lockstep : (runAt 0).lockstep ∧ step (runAt 0) = .next (stepped (runAt 0)) ∧ (runAt 0).ctrl.run = true ∧
    (facing (.busWrite 0x0C 0x10)).lockstep ∧
    step (facing (.busWrite 0x0C 0x10)) = .next (stepped (facing (.busWrite 0x0C 0x10))) ∧
    (facing (.busWrite 0x0C 0x10)).nextMove = .busWrite 0x0C 0x10 := by
  refine ⟨?_, rfl, ?_, ?_, rfl, ?_⟩ <;> (try unfold State.lockstep) <;> decide

/-- FtstepWithoutACrossing: the arming sample, even one that would cross; TRACKING; LOCKED with the count about to wrap -/
theorem witness_ftstep_quiet : (tracking .unsynced 0 0xFFFFFFFF 0).status.halted = false ∧
    (tracking .unsynced 0 0xFFFFFFFF 0).tracker.state = .unsynced ∧ ¬ Crosses 0 0xFFFFFFFF ∧
    (tracking .tracking 0 0 0xFFFFFFFF).status.halted = false ∧ ¬ Crosses 0xFFFFFFFF 0x80000000 ∧
    (tracking .locked 0xFFFFFFFF 0xFFFFFFFF 0x80000000).status.halted = false := by
  unfold Crosses; decide

/-- FirstCrossingLocks, EntryCrossingStartsTheMeasuredCycle, NoTwoConsecutiveCrossings, CrossingFractionIsBelowOneThousand -/
theorem witness_crossing : Crosses 0xFFDEBC60 0x00628324 ∧ Crosses 0xFFFFFFFF 0 ∧
    (tracking .tracking 0 0xFFDEBC60 0x00628324).status.halted = false ∧
    (tracking .tracking 0 0xFFDEBC60 0x00628324).tracker.state = .tracking ∧
    (tracking .locked 16 0xFFDEBC60 0x00628324).status.halted = false ∧
    (tracking .locked 16 0xFFDEBC60 0x00628324).tracker.state = .locked ∧
    (tracking .locked 16 0xFFDEBC60 0x00628324).tracker.toggle = false ∧
    exec .ftstep (tracking .tracking 0 0xFFDEBC60 0x00628324) =
      .next (after .ftstep (tracking .tracking 0 0xFFDEBC60 0x00628324)) ∧
    (after .ftstep (tracking .tracking 0 0xFFDEBC60 0x00628324)).status.halted = false := by
  unfold Crosses
  refine ⟨?_, ?_, ?_, ?_, ?_, ?_, ?_, rfl, ?_⟩ <;> decide

/-- ExitCrossingReportsABoundaryOrHalts with fractions in range (section 2.3.3, first row; the last boundary, period 10;
and the first halt, period 9, at fraction 0) -/
theorem witness_exit_in_range : (atExit 1250000 15 747 0xFFDEBC60 0x00628324).status.halted = false ∧
    (atExit 1250000 15 747 0xFFDEBC60 0x00628324).tracker.state = .locked ∧
    (atExit 1250000 15 747 0xFFDEBC60 0x00628324).tracker.toggle = true ∧ Crosses 0xFFDEBC60 0x00628324 ∧
    InRange 747 (fraction 0x00628324 0xFFDEBC60) ∧
    (1250028 : Word) = pat (correctedPeriod 1250000 (pat (15 + 1)) 747 (fraction 0x00628324 0xFFDEBC60)) ∧
    InRange 0 (fraction 0 0xFFFFFFFF) ∧
    (10 : Word) = pat (correctedPeriod 160 (pat (0 + 1)) 0 (fraction 0 0xFFFFFFFF)) ∧
    (9 : Word) = pat (correctedPeriod 159 (pat (0 + 1)) 0 (fraction 0 0xFFFFFFFF)) := by
  unfold Crosses InRange; decide

/-- ExitCrossingReportsABoundaryOrHalts with a fraction outside the range (fifth row of 2.3.3) -/
theorem witness_exit_out_of_range : ¬ InRange 2000 (fraction 1 0xFFFFFFFF) ∧ Crosses 0xFFFFFFFF 1 ∧
    (1250000 : Word) = pat (exactPeriod 1250000 (pat (15 + 1))) ∧ ¬ InRange 1001 (fraction 1 0xFFFFFFFF) ∧
    InRange 1000 (fraction 1 0xFFFFFFFF) := by
  unfold Crosses InRange; decide

/-- TrackerStateOnlyAdvances, StickyFlagsAreClearedByResetOnly, OvfFeedsBackIntoNothing, ParametersAreConstants,
SetPeriodIsEmittedOncePerBoundary: a step in RUN mode that is no reset and no bus access -/
theorem witness_step_next :
    step { tracking .unsynced 0 0 0 with ctrl := { run := true, testMode := false }, seqPc := 1 } =
      .next (stepped { tracking .unsynced 0 0 0 with ctrl := { run := true, testMode := false }, seqPc := 1 }) ∧
    State.nextMove { tracking .unsynced 0 0 0 with ctrl := { run := true, testMode := false }, seqPc := 1 } = .consumer ∧
    (stepped { tracking .unsynced 0 0 0 with ctrl := { run := true, testMode := false }, seqPc := 1 }).tracker.state =
      .tracking := by
  refine ⟨rfl, ?_, ?_⟩ <;> decide

/-- StickyFlagsAreClearedByResetOnly: each flag set before a step -/
theorem witness_sticky : (step { halted with status := { halted.status with ovf := true, tmodeBad := true, cmdErr := true } } =
      .next (stepped
        { halted with status := { halted.status with ovf := true, tmodeBad := true, cmdErr := true } })) ∧
    halted.status.halted = true := by
  refine ⟨rfl, ?_⟩; decide

/-- A boundary crossing (section 2.3.3) with BOUNDARY already 1, in a mode, at a ROM index, facing a move. -/
def atBoundary (run : Bool) (pc : BitVec 4) (moves : List Event) : State :=
  { atExit 1250000 15 747 0xFFDEBC60 0x00628324 with
    tracker := { (atExit 1250000 15 747 0xFFDEBC60 0x00628324).tracker with boundary := true }
    agg := { State.reset.agg with count := 16 }
    ctrl := { run := run, testMode := false }
    seqPc := pc
    schedule := moves }

/-- SetPeriodIsEmittedOncePerBoundary: an FTSTEP of the ROM, one written to CMD, one that sees no crossing; and FINP with
BOUNDARY already 1 -/
theorem witness_set_period :
    RunsFtstep (atBoundary true 1 []) ∧ step (atBoundary true 1 []) = .next (stepped (atBoundary true 1 [])) ∧
    (stepped (atBoundary true 1 [])).periodEvents = [⟨1250028, true⟩] ∧
    RunsFtstep (atBoundary false 0 [.busWrite 0x0C 0x20]) ∧
    step (atBoundary false 0 [.busWrite 0x0C 0x20]) = .next (stepped (atBoundary false 0 [.busWrite 0x0C 0x20])) ∧
    (stepped (atBoundary false 0 [.busWrite 0x0C 0x20])).periodEvents = [⟨1250028, true⟩] ∧
    RunsFtstep (runAt 1) ∧ (stepped (runAt 1)).tracker.boundary = false ∧
    ¬ RunsFtstep (atBoundary true 4 []) ∧ step (atBoundary true 4 []) = .next (stepped (atBoundary true 4 [])) ∧
    (atBoundary true 4 []).tracker.boundary = true ∧ (stepped (atBoundary true 4 [])).periodEvents = [] := by
  unfold RunsFtstep
  refine ⟨?_, rfl, ?_, ?_, rfl, ?_, ?_, ?_, ?_, rfl, ?_, ?_⟩ <;> decide

/-- FinpReportsTheMeanPower: samples counted, and none -/
theorem witness_finp : (sums 0 0 0x09600000 16).status.halted = false ∧ (sums 0 0 0x09600000 16).agg.count ≠ 0 ∧
    (sums 0 0 0 0).status.halted = false ∧ (sums 0 0 0 0).agg.count = 0 := by decide

/-- A warm FINRMS at a converged seed: the means are 576 and 100. -/
def warm (seedV seedI : Word) : State :=
  { sums 0x24000000 0x06400000 0 16 with
    agg := { (sums 0x24000000 0x06400000 0 16).agg with seedV := seedV, seedI := seedI, rmsCold := false } }

/-- FinrmsPublishesBothChannels -/
theorem witness_finrms : (warm 0x00180000 0x000A0000).status.halted = false ∧ (warm 0x00180000 0x000A0000).agg.count ≠ 0 ∧
    (warm 0x00180000 0x000A0000).agg.seedV ≠ 0 ∧ (warm 0x00180000 0x000A0000).agg.seedI ≠ 0 ∧
    IsNewtonRun (BitVec.ofNat 32 (0x24000000 / 16)) 0x00180000 1 (fun _ => 0x00180000) ∧
    IsNewtonRun (BitVec.ofNat 32 (0x06400000 / 16)) 0x000A0000 1 (fun _ => 0x000A0000) := by
  unfold IsNewtonRun; decide

/-- FinrmsHaltsOnAZeroCountSeedOrIterate: a zero count, each zero seed, and a zero iterate of each channel of a cold FINRMS with seed 1 and
sum 0 -/
theorem witness_finrms_halts : (warm 0 0x000A0000).status.halted = false ∧ (warm 0 0x000A0000).agg.count ≠ 0 ∧
    (warm 0 0x000A0000).agg.seedV = 0 ∧ (warm 0x00180000 0).agg.seedI = 0 ∧
    IsNewtonRun (BitVec.ofNat 32 (0x24000000 / 16)) 0x00180000 1 (fun _ => 0x00180000) ∧
    (sums 0 0 0 0).status.halted = false ∧ (sums 0 0 0 0).agg.count = 0 ∧ (sums 0 0 0 16).agg.rmsCold = true ∧ 1 < 15 ∧
    IsNewtonRun (BitVec.ofNat 32 (0 / 16)) 1 1 (fun k => if k = 0 then 1 else 0) ∧
    IsNewtonRun (BitVec.ofNat 32 (0x24000000 / 16)) 0x00180000 15 (fun _ => 0x00180000) := by
  unfold IsNewtonRun; decide

/-- BnbAndJmpSetOnlyTheProgramCounter: targets 0 and 9, RUN mode and DIRECT mode -/
theorem witness_transfer : (runAt 3).status.halted = false ∧ (runAt 3).ctrl.run = true ∧ (0 : BitVec 8).toNat ≤ 9 ∧
    (9 : BitVec 8).toNat ≤ 9 ∧ (runAt 3).tracker.boundary = false ∧ State.reset.status.halted = false ∧
    State.reset.ctrl.run = false := by decide

/-- TotalsChangeOnlyByTheirOwnOperation: a RUN mode step that changes TOT_FREQ, TOT_POWER, the RMS totals -/
theorem witness_totals_freq : step { atExit 1250000 15 747 0xFFDEBC60 0x00628324 with
        ctrl := { run := true, testMode := false }, seqPc := 1 } =
      .next (stepped { atExit 1250000 15 747 0xFFDEBC60 0x00628324 with
        ctrl := { run := true, testMode := false }, seqPc := 1 }) ∧
    (stepped { atExit 1250000 15 747 0xFFDEBC60 0x00628324 with
      ctrl := { run := true, testMode := false }, seqPc := 1 }).totals.freq ≠ 0 := by
  refine ⟨rfl, ?_⟩; decide

theorem witness_totals_cycle :
    (stepped { sums 0 0 0x09600000 16 with ctrl := { run := true, testMode := false }, seqPc := 4 }).totals.power ≠ 0 ∧
    (stepped { warm 0x00180000 0x000A0000 with ctrl := { run := true, testMode := false }, seqPc := 5 }).totals.vrms ≠ 0 ∧
    (stepped { warm 0x00180000 0x000A0000 with ctrl := { run := true, testMode := false }, seqPc := 5 }).totals.irms ≠ 0 ∧
    (stepped { energyState 0x00F00000 1250000 32 0x0E0666D0 with
      ctrl := { run := true, testMode := false }, seqPc := 6 }).totals.energy ≠ 0 ∧
    (stepped { billState 2 0 0x03E80000 100 with
      ctrl := { run := true, testMode := false }, seqPc := 7 }).totals.cost ≠ 0 ∧
    (stepped { pfState 0xFF880000 0x00F00000 0x00010000 with
      ctrl := { run := true, testMode := false }, seqPc := 8 }).totals.pf ≠ 0x1234 := by decide

/-- HaltedMachineIsFrozen: the consumer's move and a bus read while halted -/
theorem witness_halted : halted.status.halted = true ∧ halted.nextMove = .consumer ∧
    ({ halted with schedule := [.busRead 0x0A] }).nextMove = .busRead 0x0A ∧
    (stepped { halted with schedule := [.busRead 0x0A] }).busReads = [⟨0x0A, 0x00000401⟩] := by decide

/-- ResetGivesEveryRegisterItsResetValue: from the halt, with a window of one value -/
theorem witness_reset : ({ halted with schedule := [.reset ⟨[5], 1, 2, 3⟩] }).schedule = [.reset ⟨[5], 1, 2, 3⟩] ∧
    (stepped { halted with schedule := [.reset ⟨[5], 1, 2, 3⟩] }).vbuf 0 = 5 ∧
    (stepped { halted with schedule := [.reset ⟨[5], 1, 2, 3⟩] }).status.halted = false := by decide

/-- BusDecodeIsTheAddressMap: the first and the last row, the windows' ends -/
theorem witness_address_map : ⟨0x00, .opa, 32, .d⟩ ∈ registerMap ∧
    ⟨0x3E, .totPf, 32, .d⟩ ∈ registerMap ∧ (0x40 : BusAddr).val = 0x40 + (0 : BitVec 4).toNat ∧
    (0x4F : BusAddr).val = 0x40 + (15 : BitVec 4).toNat ∧ (0x5F : BusAddr).val = 0x50 + (15 : BitVec 4).toNat := by decide

/-- BusReadsHaveNoSideEffect: a mapped address, a window entry, the first and the last unmapped address -/
theorem witness_bus_read : (facing (.busRead 0x09)).schedule = [.busRead 0x09] ∧
    ⟨0x09, .status, 5, .n⟩ ∈ registerMap ∧ (0x50 : BusAddr).val = 0x50 + (0 : BitVec 4).toNat ∧
    (0x05 : BusAddr).val ∈ unmapped ∧ (0x3F : BusAddr).val ∈ unmapped ∧
    (facing (.busWrite 0x05 7)).schedule = [.busWrite 0x05 7] ∧
    (facing (.busWrite 0x3F 7)).schedule = [.busWrite 0x3F 7] := by decide

/-- ForbiddenHostWritesAreIgnored: class N; class D in RUN mode and while halted; class A while halted -/
theorem witness_forbidden_write : (facing (.busWrite 0x09 31)).schedule = [.busWrite 0x09 31] ∧
    busDecode 0x09 = some .status ∧ BusReg.hostClass .status = .n ∧
    ({ runAt 0 with schedule := [.busWrite 0x00 7] }).schedule = [.busWrite 0x00 7] ∧ busDecode 0x00 = some .opa ∧
    BusReg.hostClass .opa = .d ∧ (runAt 0).ctrl.run = true ∧ halted.status.halted = true ∧
    ({ halted with schedule := [.busWrite 0x08 1] }).schedule = [.busWrite 0x08 1] ∧ busDecode 0x08 = some .ctrl ∧
    BusReg.hostClass .ctrl = .a := by decide

/-- ClassAWritesReadBack: both modes, each width at its last value and one above -/
theorem witness_class_a : ⟨0x0D, .tariffMode, 16, .a⟩ ∈ collaboratorMap ∧
    ⟨0x11, .wcDays, 16, .a⟩ ∈ collaboratorMap ∧
    (facing (.busWrite 0x0D 0xFFFF)).schedule = [.busWrite 0x0D 0xFFFF] ∧
    (facing (.busWrite 0x0D 0xFFFF)).status.halted = false ∧ (facing (.busWrite 0x0D 0xFFFF)).ctrl.run = false ∧
    ({ runAt 0 with schedule := [.busWrite 0x10 0x01000000] }).schedule = [.busWrite 0x10 0x01000000] ∧
    (runAt 0).status.halted = false ∧ (runAt 0).ctrl.run = true ∧
    (stepped (facing (.busWrite 0x0D 0xFFFF))).readBus 0x0D = 0xFFFF ∧
    (stepped (facing (.busWrite 0x0D 0x10000))).readBus 0x0D = 0 ∧
    (stepped { runAt 0 with schedule := [.busWrite 0x10 0x00FFFFFF] }).readBus 0x10 = 0x00FFFFFF ∧
    (stepped { runAt 0 with schedule := [.busWrite 0x10 0x01000000] }).readBus 0x10 = 0 := by decide

/-- RegistersReadAsBusWords: STATUS, CTRL and FAULT of a halted machine with every field set (R25, R29, R30) -/
theorem test_status_ctrl_fault_words :
    (StatusReg.toWord ⟨true, true, true, true, true⟩).toNat = 31 ∧ (CtrlReg.toWord ⟨true, true⟩).toNat = 3 ∧
    (FaultReg.toWord ⟨some .waitFail, 0x11, 9, true⟩).toNat = 0x191104 := by decide

/-- HostWritesOnlyClassAInRunMode: a class A and a class D register -/
theorem witness_run_write : ({ runAt 0 with schedule := [.busWrite 0x0D 3] }).schedule = [.busWrite 0x0D 3] ∧
    (runAt 0).ctrl.run = true ∧ busDecode 0x0D = some .tariffMode ∧ busDecode 0x00 = some .opa := by decide

/-- DirectModeWritesReadBack: a whole register, a cursor, a bit, a window entry at each end -/
theorem witness_direct_write : (facing (.busWrite 0x00 7)).mem.wf = true ∧ (facing (.busWrite 0x00 7)).ctrl.run = false ∧
    (facing (.busWrite 0x00 7)).status.halted = false ∧ busDecode 0x00 = some .opa ∧ BusReg.hostClass .opa = .d ∧
    busDecode 0x14 = some .pcur ∧ busDecode 0x1F = some .boundary ∧ busDecode 0x26 = some .aggCtl ∧
    busDecode 0x40 = some (.vbuf 0) ∧ busDecode 0x5F = some (.ibuf 15) ∧
    (stepped (facing (.busWrite 0x5F 0x8000))).readBus 0x5F = 0xFFFF8000 := by decide

/-- ReservedValuesAreNotWritten: the last legal and the first reserved value of each -/
theorem witness_reserved : (facing (.busWrite 0x0B 9)).ctrl.run = false ∧ (facing (.busWrite 0x0B 9)).status.halted = false ∧
    (stepped (facing (.busWrite 0x0B 9))).seqPc = 9 ∧ (stepped (facing (.busWrite 0x0B 10))).seqPc = 0 ∧
    (stepped (facing (.busWrite 0x18 6))).readReg .ftCtl = 6 ∧ (stepped (facing (.busWrite 0x18 7))).readReg .ftCtl = 0 := by
  decide

/-- CtrlRunIsSetNeverCleared: RUN clear, RUN set, and a waiting CMD POP -/
theorem witness_ctrl : (facing (.busWrite 0x08 1)).schedule = [.busWrite 0x08 1] ∧
    (facing (.busWrite 0x08 1)).status.halted = false ∧ (stepped (facing (.busWrite 0x08 1))).ctrl.run = true ∧
    (stepped { runAt 0 with schedule := [.busWrite 0x08 0] }).ctrl.run = true ∧
    (stepped { suspended with schedule := [.busWrite 0x08 1] }).ctrl.run = false := by decide

/-- EncodeOfDecodeIsIdentity, DecodeOfEncodeIsIdentity -/
theorem witness_encoding : decode 0x0000FF06 = .ok (.sqrt 255) ∧ (Instr.sqrt 255).wf = true := by decide

/-- EveryStepKeepsTheInvariant: reset; a suspended sequencer POP; a halted machine -/
theorem witness_inv : State.reset.Inv ∧ (after .pop (runAt 0)).Inv ∧ halted.Inv :=
  ⟨⟨by decide, by decide, by decide, by decide, by decide, by decide, by decide⟩,
    ⟨by decide, by decide, by decide, by decide, by decide, by decide, by decide⟩,
    ⟨by decide, by decide, by decide, by decide, by decide, by decide, by decide⟩⟩

end Sys2Proof.Tests
end

section
/-! Part of the laws: the open parameters of an instance (00_scope R10) are not written. One lemma per move, then the
step. -/

namespace Sys2Proof.Machine

/-! ### Operations -/

theorem Ends.params {i : Instr} {s t : State} (h : Ends i s t) : t.params = s.params := by
  cases h with
  | completes u hu _ => rw [State.advance_params, hu.params]
  | blocks _ => exact State.blockPop_params s
  | halts u c hu _ => rw [State.takeFatal_params, hu.params]

theorem exec_params {i : Instr} {s t : State} (h : exec i s = .next t) : t.params = s.params := by
  obtain ⟨-, rfl⟩ | ⟨-, -, _, rfl, -⟩ | ⟨-, -, -, rfl⟩ | ⟨-, -, hends⟩ := exec_cases h
  · rfl
  · rfl
  · exact State.cmdRefused_params s
  · exact hends.params

/-! ### The agents' moves -/

theorem consumerMove_params {s t : State} (h : consumerMove s = .next t) : t.params = s.params := by
  obtain rfl | ⟨-, -, -, hexec⟩ | ⟨_, -, -, -, -, hexec⟩ := consumerMove_cases h
  · rfl
  · exact exec_params hexec
  · exact exec_params hexec

theorem commandMove_params {w : Word} {s t : State} (h : commandMove w s = .next t) : t.params = s.params := by
  obtain ⟨-, rfl⟩ | rfl | ⟨_, -, -, -, -, hexec⟩ := commandMove_cases h
  · rfl
  · exact State.cmdRefused_params s
  · exact exec_params hexec

/-- No register of the address map (R49) holds a parameter. -/
@[simp] theorem State.putReg_params (s : State) (v : Word) (r : BusReg) : (s.putReg v r).params = s.params := by
  cases r <;> rfl

theorem busWriteMove_params {a : BusAddr} {v : Word} {s t : State} (h : busWriteMove a v s = .next t) :
    t.params = s.params := by
  obtain rfl | ⟨-, hcmd⟩ | ⟨r, -, -, -, rfl⟩ := busWriteMove_cases h
  · rfl
  · exact commandMove_params hcmd
  · exact State.putReg_params s v r

@[simp] theorem State.tickMove_params (s : State) (v i : Half) : (s.tickMove v i).params = s.params := by
  unfold State.tickMove; split <;> rfl

@[simp] theorem State.assertWaitFail_params (s : State) : s.assertWaitFail.params = s.params := by
  unfold State.assertWaitFail; split <;> rfl

/-- Reset reads `PERIOD_RESET` from the parameters and keeps them. -/
@[simp] theorem State.afterReset_params (s : State) (u : ResetInputs) : (s.afterReset u).params = s.params := rfl

@[simp] theorem State.popped_params (s : State) : s.popped.params = s.params := rfl

/-! ### The step -/

theorem applyEvent_params {e : Event} {s t : State} (h : applyEvent e s = .next t) : t.params = s.params := by
  cases e with
  | consumer => exact consumerMove_params h
  | tick v i => cases h; exact State.tickMove_params s v i
  | busWrite a v => exact busWriteMove_params h
  | busRead a => cases h; exact State.busReadMove_params s a
  | waitFail => cases h; exact State.assertWaitFail_params s
  | reset u => cases h; exact State.afterReset_params s u

theorem step_params {s t : State} (h : step s = .next t) : t.params = s.params := by
  rw [step_eq] at h
  rw [applyEvent_params h, State.popped_params]

/-- Settles O57: every agent's move keeps the parameters (`applyEvent_params`), and a step is one such move. -/
theorem parametersAreConstants : Obligations.ParametersAreConstants := by
  unfold Obligations.ParametersAreConstants
  intro s t h
  exact step_params h

end Sys2Proof.Machine
end

section
/-! Part of the laws: the machine's invariant (`State.Inv`) is kept. What the moves have in common first, then one lemma
per move, then the step. -/

namespace Sys2Proof.Machine

/-! ### The step's move and its executions -/

/-- A scheduled move is the one the step makes. -/
theorem step_of_schedule {s : State} {e : Event} {rest : List Event} (h : s.schedule = e :: rest) :
    step s = applyEvent e { s with schedule := rest } := by
  simp [step, h]

/-- All a `CMD` write changes, it changes by a refusal or an execution. -/
theorem commandMove_exec {w : Word} {s t : State} (h : commandMove w s = .next t) :
    t = s ∨ t = s.cmdRefused ∨ ∃ i, exec i s = .next t := by
  obtain ⟨-, rfl⟩ | rfl | ⟨i, -, -, -, -, hexec⟩ := commandMove_cases h
  · exact .inl rfl
  · exact .inr (.inl rfl)
  · exact .inr (.inr ⟨i, hexec⟩)

/-- All the consumer's move changes, it changes by an execution. -/
theorem consumerMove_exec {s t : State} (h : consumerMove s = .next t) : t = s ∨ ∃ i, exec i s = .next t := by
  obtain rfl | ⟨-, -, -, hexec⟩ | ⟨i, -, -, -, -, hexec⟩ := consumerMove_cases h
  · exact .inl rfl
  · exact .inr ⟨.pop, hexec⟩
  · exact .inr ⟨i, hexec⟩

/-! ### Every move answers a next state -/

/-- Every ROM index holds an executable word (R85). -/
theorem fetchOperation_isSome {pc : BitVec 4} (h : pc.toNat ≤ 9) : ∃ i, fetchOperation pc = some i := by
  have all : ∀ pc : BitVec 4, pc.toNat ≤ 9 → (fetchOperation pc).isSome := by decide
  exact Option.isSome_iff_exists.mp (all pc h)

theorem consumerMove_next {s : State} (h : s.seqPc.toNat ≤ 9) : ∃ t, consumerMove s = .next t := by
  obtain ⟨i, hi⟩ := fetchOperation_isSome h
  unfold consumerMove
  rw [hi]
  split
  · exact ⟨s, rfl⟩
  · split
    · split
      · exact exec_next .pop s
      · exact ⟨s, rfl⟩
    · split
      · exact exec_next i s
      · exact ⟨s, rfl⟩

theorem commandMove_next (w : Word) (s : State) : ∃ t, commandMove w s = .next t := by
  unfold commandMove
  split
  · exact ⟨s, rfl⟩
  · split
    · exact ⟨s.cmdRefused, rfl⟩
    · split
      · exact exec_next _ s
      · exact ⟨s.cmdRefused, rfl⟩

theorem busWriteMove_next (a : BusAddr) (v : Word) (s : State) : ∃ t, busWriteMove a v s = .next t := by
  unfold busWriteMove
  split
  · exact ⟨s, rfl⟩
  · exact commandMove_next v s
  · exact ⟨_, rfl⟩

theorem applyEvent_next (e : Event) {s : State} (h : s.seqPc.toNat ≤ 9) : ∃ t, applyEvent e s = .next t := by
  cases e with
  | consumer => exact consumerMove_next h
  | busWrite a v => exact busWriteMove_next a v s
  | tick v i => exact ⟨_, rfl⟩
  | busRead a => exact ⟨_, rfl⟩
  | waitFail => exact ⟨_, rfl⟩
  | reset u => exact ⟨_, rfl⟩

/-! ### The invariant under an operation -/

/-- The invariant speaks of these parts of the state alone. -/
theorem State.Inv.of_eqs {s t : State} (h : s.Inv) (seqPc : t.seqPc = s.seqPc) (mem : t.mem = s.mem)
    (halted : t.status.halted = s.status.halted) (waiting : t.status.waiting = s.status.waiting)
    (ctrl : t.ctrl = s.ctrl) (fault : t.fault = s.fault) (popLifted : t.popLifted = s.popLifted) : t.Inv where
  seqPc := by rw [seqPc]; exact h.seqPc
  memWf := by rw [mem]; exact h.memWf
  memWindow := by rw [mem]; exact h.memWindow
  faultClear := by rw [halted, fault]; exact h.faultClear
  faultTaken := by rw [halted, fault, seqPc, ctrl]; exact h.faultTaken
  suspendedAtPop := by rw [ctrl, waiting, seqPc]; exact h.suspendedAtPop
  liftedWaits := by rw [popLifted, waiting]; exact h.liftedWaits

/-- The halt of R213 records its cause, `SEQ_PC` and the source, and keeps the rest of the invariant. -/
theorem State.Inv.takeFatal {s : State} (h : s.Inv) (op : BitVec 8) (c : Cause) : (s.takeFatal op c).Inv where
  seqPc := h.seqPc
  memWf := h.memWf
  memWindow := h.memWindow
  faultClear := nofun
  faultTaken := fun _ => ⟨nofun, rfl, rfl⟩
  suspendedAtPop := h.suspendedAtPop
  liftedWaits := h.liftedWaits

/-- While the machine is not halted, `SEQ_PC` may be set to any ROM index if no POP is suspended in RUN mode. -/
theorem State.Inv.setSeqPc {s : State} (h : s.Inv) (hh : s.status.halted = false) {k : BitVec 4} (hk : k.toNat ≤ 9)
    (hw : s.ctrl.run = true → s.status.waiting = false) : ({ s with seqPc := k } : State).Inv where
  seqPc := hk
  memWf := h.memWf
  memWindow := h.memWindow
  faultClear := h.faultClear
  faultTaken := fun halted => absurd (hh.symm.trans halted) nofun
  suspendedAtPop := fun run waiting => absurd ((hw run).symm.trans waiting) nofun
  liftedWaits := h.liftedWaits

/-- A body's writes keep the invariant where they leave a suspended POP's hold consistent. -/
theorem State.Inv.of_body {s u : State} (h : s.Inv) (hh : s.status.halted = false) (hb : BodyFrame s u)
    (suspended : u.status.waiting = true → s.status.waiting = true)
    (lifted : u.popLifted = true → u.status.waiting = true) : u.Inv where
  seqPc := by rw [hb.seqPc]; exact h.seqPc
  memWf := hb.memWf h.memWf
  memWindow := hb.memWindow h.memWindow
  faultClear := fun _ => by rw [hb.fault]; exact h.faultClear hh
  faultTaken := fun halted => by rw [hb.halted, hh] at halted; cases halted
  suspendedAtPop := fun run waiting => by
    rw [hb.seqPc]; rw [hb.ctrl] at run; exact h.suspendedAtPop run (suspended waiting)
  liftedWaits := lifted

theorem State.Inv.blockPop {s : State} (h : s.Inv) (hh : s.status.halted = false)
    (hpc : s.ctrl.run = true → s.seqPc = 0) : s.blockPop.Inv where
  seqPc := h.seqPc
  memWf := h.memWf
  memWindow := h.memWindow
  faultClear := fun _ => h.faultClear hh
  faultTaken := fun halted => absurd (hh.symm.trans halted) nofun
  suspendedAtPop := fun run _ => hpc run
  liftedWaits := nofun

/-- Completing moves `SEQ_PC` in RUN mode only, and from an index before the ROM's last. -/
theorem State.Inv.advance {s : State} (h : s.Inv) (hh : s.status.halted = false)
    (hpc : s.ctrl.run = true → s.seqPc.toNat ≤ 8) (hw : s.ctrl.run = true → s.status.waiting = false) :
    s.advance.Inv := by
  unfold State.advance
  split
  next run =>
    have := hpc run
    exact h.setSeqPc hh (by bv_omega) hw
  next => exact h

/-- What the consumer's move and a `CMD` write ensure when they execute an operation: a POP comes from ROM index 0 or
from `CMD`, another operation when no POP is suspended, and only the ROM's last word, JMP 0, stands at index 9. -/
structure MayExecute (i : Instr) (s : State) : Prop where
  halted : s.status.halted = false
  pop : i = .pop → s.ctrl.run = true → s.seqPc = 0
  notWaiting : i ≠ .pop → s.status.waiting = false
  completes : s.ctrl.run = true → i.romOnly = false → s.seqPc.toNat ≤ 8
  jmp : s.ctrl.run = true → ∀ a, i = .jmp a → a = 0
  bnb : s.ctrl.run = true → ∀ a, i = .bnb a → a = 0 ∧ s.seqPc = 3

theorem MayExecute.suspendedPop {s : State} (h : s.Inv) (hh : s.status.halted = false)
    (hw : s.status.waiting = true) : MayExecute .pop s where
  halted := hh
  pop := fun _ run => h.suspendedAtPop run hw
  notWaiting := fun hne => absurd rfl hne
  completes := fun run _ => by rw [h.suspendedAtPop run hw]; decide
  jmp := nofun
  bnb := nofun

theorem MayExecute.fetched {s : State} {i : Instr} (hh : s.status.halted = false) (hw : s.status.waiting = false)
    (hf : fetchOperation s.seqPc = some i) : MayExecute i s := by
  refine ⟨hh, ?_, fun _ => hw, ?_, ?_, ?_⟩ <;>
    obtain ⟨hpc, rfl⟩ | ⟨hpc, rfl⟩ | ⟨hpc, rfl⟩ | ⟨hpc, rfl⟩ | ⟨hpc, rfl⟩ | ⟨hpc, rfl⟩ | ⟨hpc, rfl⟩ | ⟨hpc, rfl⟩ |
      ⟨hpc, rfl⟩ | ⟨hpc, rfl⟩ := fetchOperation_cases hf <;>
    simp [hpc, Instr.romOnly]

theorem MayExecute.fromCmd {s : State} (i : Instr) (hh : s.status.halted = false) (hr : s.ctrl.run = false)
    (hw : s.status.waiting = false) : MayExecute i s := by
  constructor <;> simp [hh, hr, hw]

/-- However an operation not of format T ends, the invariant is kept. -/
theorem Ends.inv {i : Instr} {s t : State} (he : Ends i s t) (hm : MayExecute i s) (hi : i.romOnly = false)
    (h : s.Inv) : t.Inv := by
  cases he with
  | completes u hb hold =>
    have key : (u.status.waiting = false) ∧ (u.popLifted = true → u.status.waiting = true) := by
      obtain ⟨hne, hhold⟩ | ⟨-, hwait, hlift⟩ | ⟨rfl, hwait, hlift⟩ := hold
      · rw [hhold.waiting, hhold.popLifted]
        exact ⟨hm.notWaiting hne, h.liftedWaits⟩
      · exact ⟨hwait, fun lifted => absurd (hlift.symm.trans lifted) nofun⟩
      · rw [hwait]
        exact ⟨hm.notWaiting nofun, fun lifted => (hlift lifted).elim h.liftedWaits id⟩
    obtain ⟨notWaiting, lifted⟩ := key
    have hu : u.Inv := h.of_body hm.halted hb (fun waiting => absurd (notWaiting.symm.trans waiting) nofun) lifted
    refine hu.advance (hb.halted.trans hm.halted) ?_ fun _ => notWaiting
    rw [hb.ctrl, hb.seqPc]
    exact fun run => hm.completes run hi
  | blocks hpop => exact h.blockPop hm.halted (hm.pop hpop)
  | halts u c hb hold =>
    refine (h.of_body hm.halted hb ?_ ?_).takeFatal _ c
    · rw [hold.waiting]; exact id
    · rw [hold.popLifted, hold.waiting]; exact h.liftedWaits

theorem exec_inv {i : Instr} {s t : State} (hm : MayExecute i s) (hexec : exec i s = .next t) (h : s.Inv) : t.Inv := by
  obtain ⟨-, rfl⟩ | ⟨hh, hr, k, rfl, hk⟩ | ⟨-, -, -, rfl⟩ | ⟨-, hi, hends⟩ := exec_cases hexec
  · exact h
  · obtain ⟨a, rfl, rfl⟩ | ⟨a, rfl, rfl⟩ := hk
    · rw [hm.jmp hr a rfl]
      exact h.setSeqPc hh (by decide) fun _ => hm.notWaiting nofun
    · obtain ⟨rfl, hpc⟩ := hm.bnb hr a rfl
      refine h.setSeqPc hh ?_ fun _ => hm.notWaiting nofun
      rw [hpc]
      split <;> decide
  · exact h.of_eqs rfl rfl rfl rfl rfl rfl rfl
  · exact hends.inv hm hi h

/-! ### The invariant under the agents' moves -/

theorem consumerMove_inv {s t : State} (hmove : consumerMove s = .next t) (h : s.Inv) : t.Inv := by
  obtain rfl | ⟨hh, hw, -, hexec⟩ | ⟨i, hh, hw, -, hf, hexec⟩ := consumerMove_cases hmove
  · exact h
  · exact exec_inv (.suspendedPop h hh hw) hexec h
  · exact exec_inv (.fetched hh hw hf) hexec h

theorem commandMove_inv {w : Word} {s t : State} (hmove : commandMove w s = .next t) (h : s.Inv) : t.Inv := by
  obtain ⟨-, rfl⟩ | rfl | ⟨i, hh, hr, hw, -, hexec⟩ := commandMove_cases hmove
  · exact h
  · exact h.of_eqs rfl rfl rfl rfl rfl rfl rfl
  · exact exec_inv (.fromCmd i hh hr hw) hexec h

theorem State.hostMayWrite_notHalted {s : State} {c : HostClass} (h : s.hostMayWrite c = true) :
    s.status.halted = false := by
  cases c <;> simp_all [State.hostMayWrite]

/-- Class D registers are written in DIRECT mode only (R20). -/
theorem State.hostMayWrite_d {s : State} (h : s.hostMayWrite .d = true) : s.ctrl.run = false := by
  simp_all [State.hostMayWrite]

/-- A write of `CTRL` keeps the invariant: it does not set `RUN` while a POP waits (R29, R202). -/
theorem State.Inv.writeCtrl {s : State} (h : s.Inv) (hh : s.status.halted = false) (v : Word) :
    ({ s with ctrl := s.ctrl.write s.status.waiting v } : State).Inv where
  seqPc := h.seqPc
  memWf := h.memWf
  memWindow := h.memWindow
  faultClear := h.faultClear
  faultTaken := fun halted => absurd (hh.symm.trans halted) nofun
  suspendedAtPop := fun run waiting => by
    simp only at waiting
    simp only [CtrlReg.write, waiting, Bool.not_true, Bool.and_false, Bool.or_false] at run
    exact h.suspendedAtPop run waiting
  liftedWaits := h.liftedWaits

theorem writeSeqPc_le {pc : BitVec 4} (h : pc.toNat ≤ 9) (v : Word) : (writeSeqPc pc v).toNat ≤ 9 := by
  unfold writeSeqPc
  split
  · rw [BitVec.toNat_setWidth]; omega
  · exact h

/-- A store to a window entry keeps the invariant. -/
theorem State.Inv.writeEntry {s : State} (h : s.Inv) {w : Nat} (h1 : 0x40 ≤ w) (h2 : w < 0x60) (x : Half) :
    ({ s with mem := s.mem.writeHalf w x } : State).Inv where
  seqPc := h.seqPc
  memWf := Memory.wf_writeHalf h.memWf _ _
  memWindow := Memory.inWindow_writeHalf h1 h2 _ h.memWindow
  faultClear := h.faultClear
  faultTaken := h.faultTaken
  suspendedAtPop := h.suspendedAtPop
  liftedWaits := h.liftedWaits

/-- A register write that its class allows keeps the invariant; only `CTRL`, `SEQ_PC` and the windows bear on it. -/
theorem State.Inv.putReg {s : State} {r : BusReg} (h : s.Inv) (hc : s.hostMayWrite r.hostClass = true) (v : Word) :
    (s.putReg v r).Inv := by
  have hh := State.hostMayWrite_notHalted hc
  cases r with
  | ctrl => exact h.writeCtrl hh v
  | seqPc =>
    have hr : s.ctrl.run = false := State.hostMayWrite_d hc
    exact h.setSeqPc hh (writeSeqPc_le h.seqPc v) fun run => absurd (hr.symm.trans run) nofun
  | vbuf k =>
    have := vbufWord_bounds k
    exact h.writeEntry (by omega) (by omega) _
  | ibuf k =>
    have := ibufWord_bounds k
    exact h.writeEntry (by omega) (by omega) _
  | _ => exact h.of_eqs rfl rfl rfl rfl rfl rfl rfl

theorem busWriteMove_inv {a : BusAddr} {v : Word} {s t : State} (hmove : busWriteMove a v s = .next t) (h : s.Inv) :
    t.Inv := by
  obtain rfl | ⟨-, hcmd⟩ | ⟨r, -, -, hc, rfl⟩ := busWriteMove_cases hmove
  · exact h
  · exact commandMove_inv hcmd h
  · exact h.putReg hc v

/-- A tick's PUSH keeps the invariant, also while a POP is suspended: it lifts only the hold of a POP that waits. -/
theorem State.Inv.tickMove {s : State} (h : s.Inv) (v i : Half) : (s.tickMove v i).Inv := by
  unfold State.tickMove
  split
  · exact h
  next hh =>
    have hin : ({ s with inputs.adcV := v, inputs.adcI := i } : State).Inv := h.of_eqs rfl rfl rfl rfl rfl rfl rfl
    refine hin.of_body (by simpa using hh) (BodyFrame.pushSample _) id ?_
    rw [State.pushSample_popLifted, Bool.or_eq_true, Bool.and_eq_true]
    exact fun lifted => lifted.elim h.liftedWaits And.left

theorem State.Inv.assertWaitFail {s : State} (h : s.Inv) : s.assertWaitFail.Inv := by
  unfold State.assertWaitFail
  split
  · exact h.takeFatal _ _
  · exact h

/-- The invariant holds after every reset event. -/
theorem State.afterReset_inv (s : State) (u : ResetInputs) : (s.afterReset u).Inv where
  seqPc := Nat.zero_le 9
  memWf := State.afterReset_mem_wf s u
  memWindow := loadWindow_inWindow (by decide) rfl
  faultClear := fun _ => rfl
  faultTaken := nofun
  suspendedAtPop := nofun
  liftedWaits := nofun

theorem applyEvent_inv {e : Event} {s t : State} (hmove : applyEvent e s = .next t) (h : s.Inv) : t.Inv := by
  cases e with
  | consumer => exact consumerMove_inv hmove h
  | tick v i => cases hmove; exact h.tickMove v i
  | busWrite a v => exact busWriteMove_inv hmove h
  | busRead a => cases hmove; exact h.of_eqs rfl rfl rfl rfl rfl rfl rfl
  | waitFail => cases hmove; exact h.assertWaitFail
  | reset u => cases hmove; exact State.afterReset_inv s u

theorem State.Inv.popped {s : State} (h : s.Inv) : s.popped.Inv := h.of_eqs rfl rfl rfl rfl rfl rfl rfl

/-- Settles O55: the next move answers a next state because `SEQ_PC` is a ROM index (`applyEvent_next`), and every
agent's move keeps the invariant (`applyEvent_inv`). -/
theorem everyStepKeepsTheInvariant : Obligations.EveryStepKeepsTheInvariant := by
  unfold Obligations.EveryStepKeepsTheInvariant
  intro s h
  rw [step_eq]
  obtain ⟨t, ht⟩ := applyEvent_next s.nextMove h.popped.seqPc
  exact ⟨t, ht, applyEvent_inv ht h.popped⟩

end Sys2Proof.Machine
end

section
/-! Part of the laws: what a step keeps of `STATUS` and of the window's cursors. -/

namespace Sys2Proof.Machine

/-! ### The sticky flags (10_state R25) -/

/-- HALTED, OVF, TMODE_BAD and CMD_ERR stay set. -/
structure KeepsFlags (s t : State) : Prop where
  halted : s.status.halted = true → t.status.halted = true
  ovf : s.status.ovf = true → t.status.ovf = true
  tmodeBad : s.status.tmodeBad = true → t.status.tmodeBad = true
  cmdErr : s.status.cmdErr = true → t.status.cmdErr = true

theorem KeepsFlags.of_status_eq {s t : State} (h : t.status = s.status) : KeepsFlags s t := by
  constructor <;> rw [h] <;> exact id

theorem KeepsFlags.refl (s : State) : KeepsFlags s s := .of_status_eq rfl

theorem KeepsFlags.cmdRefused (s : State) : KeepsFlags s s.cmdRefused := ⟨id, id, id, fun _ => rfl⟩

theorem KeepsFlags.takeFatal {s u : State} (h : KeepsFlags s u) (op : BitVec 8) (c : Cause) :
    KeepsFlags s (u.takeFatal op c) := ⟨fun _ => rfl, h.ovf, h.tmodeBad, h.cmdErr⟩

theorem BodyFrame.keepsFlags {s u : State} (h : BodyFrame s u) : KeepsFlags s u :=
  ⟨by rw [h.halted]; exact id, h.ovf, h.tmodeBad, by rw [h.cmdErr]; exact id⟩

theorem Ends.keepsFlags {i : Instr} {s t : State} (h : Ends i s t) : KeepsFlags s t := by
  cases h with
  | completes u hb _ =>
    have hu := hb.keepsFlags
    constructor <;> rw [State.advance_status]
    exacts [hu.halted, hu.ovf, hu.tmodeBad, hu.cmdErr]
  | blocks _ => exact (BodyFrame.blockPop s).keepsFlags
  | halts u c hb _ => exact hb.keepsFlags.takeFatal _ c

theorem exec_keepsFlags {i : Instr} {s t : State} (h : exec i s = .next t) : KeepsFlags s t := by
  obtain ⟨-, rfl⟩ | ⟨-, -, _, rfl, -⟩ | ⟨-, -, -, rfl⟩ | ⟨-, -, hends⟩ := exec_cases h
  · exact .refl _
  · exact .of_status_eq rfl
  · exact .cmdRefused s
  · exact hends.keepsFlags

/-- No register write changes `STATUS`: its own class is N (R20, R25). -/
@[simp] theorem State.putReg_status (s : State) (v : Word) (r : BusReg) : (s.putReg v r).status = s.status := by
  cases r <;> rfl

theorem busWriteMove_keepsFlags {a : BusAddr} {v : Word} {s t : State} (h : busWriteMove a v s = .next t) :
    KeepsFlags s t := by
  obtain rfl | ⟨-, hcmd⟩ | ⟨r, -, -, -, rfl⟩ := busWriteMove_cases h
  · exact .refl _
  · obtain rfl | rfl | ⟨i, hexec⟩ := commandMove_exec hcmd
    · exact .refl _
    · exact .cmdRefused s
    · exact exec_keepsFlags hexec
  · exact .of_status_eq (State.putReg_status s v r)

theorem KeepsFlags.tickMove (s : State) (v i : Half) : KeepsFlags s (s.tickMove v i) := by
  unfold State.tickMove
  split
  · exact .refl s
  · have hk := (BodyFrame.pushSample { s with inputs.adcV := v, inputs.adcI := i }).keepsFlags
    exact ⟨hk.halted, hk.ovf, hk.tmodeBad, hk.cmdErr⟩

theorem KeepsFlags.assertWaitFail (s : State) : KeepsFlags s s.assertWaitFail := by
  unfold State.assertWaitFail
  split
  · exact (KeepsFlags.refl s).takeFatal _ _
  · exact .refl s

theorem applyEvent_keepsFlags {e : Event} {s t : State} (h : applyEvent e s = .next t) (he : ∀ u, e ≠ .reset u) :
    KeepsFlags s t := by
  cases e with
  | consumer =>
    obtain rfl | ⟨i, hexec⟩ := consumerMove_exec h
    · exact .refl _
    · exact exec_keepsFlags hexec
  | tick v i => cases h; exact .tickMove s v i
  | busWrite a v => exact busWriteMove_keepsFlags h
  | busRead a => cases h; exact .of_status_eq rfl
  | waitFail => cases h; exact .assertWaitFail s
  | reset u => exact absurd rfl (he u)

/-- Settles O52: every agent's move but reset keeps the four flags (`applyEvent_keepsFlags`). -/
theorem stickyFlagsAreClearedByResetOnly : Obligations.StickyFlagsAreClearedByResetOnly := by
  unfold Obligations.StickyFlagsAreClearedByResetOnly
  intro s t h he
  rw [step_eq] at h
  have hk : KeepsFlags s.popped t := applyEvent_keepsFlags h he
  exact ⟨hk.halted, hk.ovf, hk.tmodeBad, hk.cmdErr⟩

/-! ### The cursors in lockstep (10_state R37) -/

/-- Lockstep speaks of SampleChannel's registers alone. -/
theorem State.lockstep_of_channel_eq {s t : State} (h : t.channel = s.channel) (hl : s.lockstep) : t.lockstep := by
  unfold State.lockstep at *
  rw [h]
  exact hl

theorem Ends.lockstep {i : Instr} {s t : State} (h : Ends i s t) (hl : s.lockstep) : t.lockstep := by
  cases h with
  | completes u hb _ => exact State.lockstep_of_channel_eq (State.advance_channel u) (hb.lockstep hl)
  | blocks _ => exact hl
  | halts u c hb _ => exact hb.lockstep hl

theorem exec_lockstep {i : Instr} {s t : State} (h : exec i s = .next t) (hl : s.lockstep) : t.lockstep := by
  obtain ⟨-, rfl⟩ | ⟨-, -, _, rfl, -⟩ | ⟨-, -, -, rfl⟩ | ⟨-, -, hends⟩ := exec_cases h
  · exact hl
  · exact hl
  · exact hl
  · exact hends.lockstep hl

/-- In RUN mode the host writes class A registers only (R20). -/
theorem State.hostMayWrite_run {s : State} {c : HostClass} (hr : s.ctrl.run = true) (h : s.hostMayWrite c = true) :
    c = .a := by
  cases c <;> simp_all [State.hostMayWrite]

/-- The class A registers of R49. -/
theorem BusReg.hostClass_a_iff (r : BusReg) :
    r.hostClass = .a ↔ r ∈ [.ctrl, .tariffMode, .adcV, .adcI, .wcHms, .wcDays] := by
  cases r <;> simp [BusReg.hostClass]

/-- The cursors and `AVAIL` are of class D. -/
theorem State.putReg_channel_of_classA {r : BusReg} (h : r.hostClass = .a) (s : State) (v : Word) :
    (s.putReg v r).channel = s.channel := by
  cases r <;> first | rfl | cases h

/-- The address of `CMD` is the only one that decodes to it (R49). -/
theorem busDecode_eq_cmd_iff (a : BusAddr) : busDecode a = some .cmd ↔ a = 0x0C := by
  revert a; decide

theorem busWriteMove_lockstep {a : BusAddr} {v : Word} {s t : State} (h : busWriteMove a v s = .next t)
    (ha : s.ctrl.run = true ∨ a = 0x0C) (hl : s.lockstep) : t.lockstep := by
  obtain rfl | ⟨-, hcmd⟩ | ⟨r, hd, hne, hc, rfl⟩ := busWriteMove_cases h
  · exact hl
  · obtain rfl | rfl | ⟨i, hexec⟩ := commandMove_exec hcmd
    · exact hl
    · exact hl
    · exact exec_lockstep hexec hl
  · obtain hr | rfl := ha
    · exact State.lockstep_of_channel_eq (State.putReg_channel_of_classA (State.hostMayWrite_run hr hc) s v) hl
    · exact absurd (Option.some.inj (hd.symm.trans ((busDecode_eq_cmd_iff _).mpr rfl))) hne

theorem State.tickMove_lockstep {s : State} (hl : s.lockstep) (v i : Half) : (s.tickMove v i).lockstep := by
  unfold State.tickMove
  split
  · exact hl
  · exact State.pushSample_lockstep (s := { s with inputs.adcV := v, inputs.adcI := i }) hl

theorem State.assertWaitFail_channel (s : State) : s.assertWaitFail.channel = s.channel := by
  unfold State.assertWaitFail; split <;> rfl

theorem State.afterReset_lockstep (s : State) (u : ResetInputs) : (s.afterReset u).lockstep := by
  have hc : (s.afterReset u).channel = { pcur := 0, ccur := 0, avail := 0 } := rfl
  unfold State.lockstep
  rw [hc]
  decide

theorem applyEvent_lockstep {e : Event} {s t : State} (h : applyEvent e s = .next t)
    (he : s.ctrl.run = true ∨ ∀ a v, e = .busWrite a v → a = 0x0C) (hl : s.lockstep) : t.lockstep := by
  cases e with
  | consumer =>
    obtain rfl | ⟨i, hexec⟩ := consumerMove_exec h
    · exact hl
    · exact exec_lockstep hexec hl
  | tick v i => cases h; exact State.tickMove_lockstep hl v i
  | busWrite a v => exact busWriteMove_lockstep h (he.imp_right fun hcmd => hcmd a v rfl) hl
  | busRead a => cases h; exact hl
  | waitFail => cases h; exact State.lockstep_of_channel_eq (State.assertWaitFail_channel s) hl
  | reset u => cases h; exact State.afterReset_lockstep s u

/-- Settles O23: PUSH and POP move cursor and count together, and no other move but a DIRECT mode write of a register
writes either (`applyEvent_lockstep`). -/
theorem lockstepIsKept : Obligations.LockstepIsKept := by
  unfold Obligations.LockstepIsKept
  intro s t hl h he
  rw [step_eq] at h
  exact applyEvent_lockstep h he hl

end Sys2Proof.Machine
end

section
/-! Part of the laws: what a register reads as on the bus, in numbers, and the address map. -/

namespace Sys2Proof.Machine

open Sys2Proof.Statements

/-! ### Words made of fields -/

/-- Fields put side by side, in numbers. -/
theorem toNat_append_add {m n : Nat} (x : BitVec m) (y : BitVec n) :
    (x ++ y).toNat = x.toNat * 2 ^ n + y.toNat := by
  rw [BitVec.toNat_append, ← Nat.shiftLeft_add_eq_or_of_lt y.isLt, Nat.shiftLeft_eq]

theorem toNat_bitWord (b : Bool) : (bitWord b).toNat = b.toNat := by
  simp only [bitWord, toNat_append_add, BitVec.toNat_ofBool, BitVec.toNat_ofNat]
  omega

theorem StatusReg.toNat_toWord (r : StatusReg) : r.toWord.toNat =
    r.halted.toNat + 2 * r.ovf.toNat + 4 * r.tmodeBad.toNat + 8 * r.cmdErr.toNat + 16 * r.waiting.toNat := by
  simp only [StatusReg.toWord, toNat_append_add, BitVec.toNat_ofBool, BitVec.toNat_ofNat]
  omega

theorem CtrlReg.toNat_toWord (r : CtrlReg) : r.toWord.toNat = r.run.toNat + 2 * r.testMode.toNat := by
  simp only [CtrlReg.toWord, toNat_append_add, BitVec.toNat_ofBool, BitVec.toNat_ofNat]
  omega

/-- The model's cause codes are those of 60_exceptions R211. -/
theorem toNat_causeCode (c : Option Cause) : (causeCode c).toNat = causeNumber c := by
  cases c with
  | none => rfl
  | some c => cases c <;> rfl

theorem FaultReg.toNat_toWord (r : FaultReg) : r.toWord.toNat =
    causeNumber r.cause + r.op.toNat * 2 ^ 8 + r.pc.toNat * 2 ^ 16 + r.src.toNat * 2 ^ 20 := by
  simp only [FaultReg.toWord, toNat_append_add, BitVec.toNat_ofBool, BitVec.toNat_ofNat, toNat_causeCode]
  omega

theorem TrackState.toNat_code (st : TrackState) : st.code.toNat = trackNumber st := by
  cases st <;> rfl

theorem toNat_ftCtlWord (t : TrackerRegs) : (ftCtlWord t).toNat = trackNumber t.state + 4 * t.toggle.toNat := by
  simp only [ftCtlWord, toNat_append_add, BitVec.toNat_ofBool, BitVec.toNat_ofNat, TrackState.toNat_code]
  omega

/-- A narrow register reads as its number (R20). -/
theorem toNat_setWidth_word {n : Nat} (hn : n ≤ 32) (x : BitVec n) : (x.setWidth 32).toNat = x.toNat :=
  BitVec.toNat_setWidth_of_le hn

/-- Settles O44: the words made of fields by `toNat_append_add`, the narrow registers by `toNat_setWidth_word`, the
window's entries by their sign extension; a 32-bit register is its own word. -/
theorem registersReadAsBusWords : Obligations.RegistersReadAsBusWords := by
  unfold Obligations.RegistersReadAsBusWords
  intro s
  have entry (h : Half) : (h.signExtend 32).toInt = h.toInt := BitVec.toInt_signExtend_of_le (by decide)
  exact ⟨s.status.toNat_toWord, s.ctrl.toNat_toWord, s.fault.toNat_toWord, rfl, toNat_ftCtlWord s.tracker,
    toNat_bitWord _, toNat_bitWord _, toNat_setWidth_word (by decide) _, toNat_setWidth_word (by decide) _,
    toNat_setWidth_word (by decide) _, toNat_setWidth_word (by decide) _, toNat_setWidth_word (by decide) _,
    toNat_setWidth_word (by decide) _, toNat_setWidth_word (by decide) _, toNat_setWidth_word (by decide) _,
    fun _ => ⟨entry _, entry _⟩, rfl, rfl, rfl, rfl, rfl, rfl⟩

/-! ### The address map (10_state R49) -/

theorem busDecode_vbuf {a : BusAddr} {k : BitVec 4} (h : a.val = 0x40 + k.toNat) : busDecode a = some (.vbuf k) := by
  unfold busDecode
  rw [if_neg (by omega), if_pos (by omega), h, Nat.add_sub_cancel_left, BitVec.ofNat_toNat, BitVec.setWidth_eq]

theorem busDecode_ibuf {a : BusAddr} {k : BitVec 4} (h : a.val = 0x50 + k.toNat) : busDecode a = some (.ibuf k) := by
  unfold busDecode
  rw [if_pos (by omega), h, Nat.add_sub_cancel_left, BitVec.ofNat_toNat, BitVec.setWidth_eq]

/-- The registers narrower than the bus, with their bits (R49). -/
def narrowRegs : List (BusReg × Nat) :=
  [(.ctrl, 2), (.status, 5), (.fault, 21), (.seqPc, 4), (.tariffMode, 16), (.adcV, 16), (.adcI, 16), (.wcHms, 24),
    (.wcDays, 16), (.pcur, 4), (.ccur, 4), (.ftCtl, 3), (.boundary, 1), (.aggCtl, 1)]

theorem bits_of_mem_registerMap : ∀ row ∈ registerMap, row.bits = 32 ∨ (row.reg, row.bits) ∈ narrowRegs := by decide

theorem StatusReg.toNat_toWord_lt (r : StatusReg) : r.toWord.toNat < 2 ^ 5 := by
  have := r.halted.toNat_lt; have := r.ovf.toNat_lt; have := r.tmodeBad.toNat_lt
  have := r.cmdErr.toNat_lt; have := r.waiting.toNat_lt
  rw [StatusReg.toNat_toWord]
  omega

theorem CtrlReg.toNat_toWord_lt (r : CtrlReg) : r.toWord.toNat < 2 ^ 2 := by
  have := r.run.toNat_lt; have := r.testMode.toNat_lt
  rw [CtrlReg.toNat_toWord]
  omega

theorem causeNumber_lt (c : Option Cause) : causeNumber c < 2 ^ 8 := by
  rw [← toNat_causeCode]; exact (causeCode c).isLt

theorem FaultReg.toNat_toWord_lt (r : FaultReg) : r.toWord.toNat < 2 ^ 21 := by
  have := causeNumber_lt r.cause; have := r.src.toNat_lt; have := r.op.isLt; have := r.pc.isLt
  rw [FaultReg.toNat_toWord]
  omega

theorem toNat_ftCtlWord_lt (t : TrackerRegs) : (ftCtlWord t).toNat < 2 ^ 3 := by
  have hst : trackNumber t.state < 2 ^ 2 := by rw [← TrackState.toNat_code]; exact t.state.code.isLt
  have := t.toggle.toNat_lt
  rw [toNat_ftCtlWord]
  omega

theorem toNat_bitWord_lt (b : Bool) : (bitWord b).toNat < 2 ^ 1 := by
  rw [toNat_bitWord]; exact b.toNat_lt

theorem toNat_setWidth_lt {n : Nat} (hn : n ≤ 32) (x : BitVec n) : (x.setWidth 32).toNat < 2 ^ n := by
  rw [toNat_setWidth_word hn]; exact x.isLt

/-- The bits above a narrow register's read as zero (R20). -/
theorem readReg_lt_of_mem_narrowRegs (s : State) : ∀ p ∈ narrowRegs, (s.readReg p.1).toNat < 2 ^ p.2 := by
  simp only [narrowRegs, List.forall_mem_cons]
  exact ⟨s.ctrl.toNat_toWord_lt, s.status.toNat_toWord_lt, s.fault.toNat_toWord_lt, toNat_setWidth_lt (by decide) _,
    toNat_setWidth_lt (by decide) _, toNat_setWidth_lt (by decide) _, toNat_setWidth_lt (by decide) _,
    toNat_setWidth_lt (by decide) _, toNat_setWidth_lt (by decide) _, toNat_setWidth_lt (by decide) _,
    toNat_setWidth_lt (by decide) _, toNat_ftCtlWord_lt s.tracker, toNat_bitWord_lt _, toNat_bitWord_lt _, nofun⟩

/-- Settles O43: the rows and the gaps by evaluating the decoder at each of the 96 addresses, the windows by the entry's
offset, and the upper bits by each narrow register's word. -/
theorem busDecodeIsTheAddressMap : Obligations.BusDecodeIsTheAddressMap := by
  unfold Obligations.BusDecodeIsTheAddressMap
  have rows : ∀ row ∈ registerMap, busDecode row.addr = some row.reg ∧ row.reg.hostClass = row.hostClass := by decide
  have gaps : ∀ a : BusAddr, busDecode a = none ↔ a.val ∈ unmapped := by decide
  refine ⟨fun row hrow => ⟨(rows row hrow).1, (rows row hrow).2, fun s => ?_⟩,
    fun a k => ⟨busDecode_vbuf, busDecode_ibuf, rfl, rfl⟩, gaps⟩
  obtain hbits | hnarrow := bits_of_mem_registerMap row hrow
  · rw [hbits]; exact (s.readReg row.reg).isLt
  · exact readReg_lt_of_mem_narrowRegs s _ hnarrow

end Sys2Proof.Machine
end

section
/-! Part of the laws: bus writes of registers. What each register reads as after a write of itself and of another, and
what its class lets through. -/

namespace Sys2Proof.Machine

open Sys2Proof.Statements

/-! ### What a register write leaves alone -/

/-- Is it an entry of the window (R46)? -/
def BusReg.isEntry : BusReg → Bool
  | .vbuf _ | .ibuf _ => true
  | _ => false

/-- A window store changes what a register reads as at the stored entry alone. -/
theorem State.readReg_withMem {s : State} {m : Memory} {r : BusReg}
    (hv : ∀ k, r = .vbuf k → m.readHalf (vbufWord k) = s.mem.readHalf (vbufWord k))
    (hi : ∀ k, r = .ibuf k → m.readHalf (ibufWord k) = s.mem.readHalf (ibufWord k)) :
    ({ s with mem := m } : State).readReg r = s.readReg r := by
  cases r with
  | vbuf k => exact congrArg (BitVec.signExtend 32) (hv k rfl)
  | ibuf k => exact congrArg (BitVec.signExtend 32) (hi k rfl)
  | _ => rfl

/-- A write of `FT_CTL` writes `STATE` and the flag alone (R38). -/
theorem TrackerRegs.writeCtl_eq (t : TrackerRegs) (v : Word) :
    ∃ st b, t.writeCtl v = { t with state := st, toggle := b } := by
  unfold TrackerRegs.writeCtl
  split
  · exact ⟨_, _, rfl⟩
  · exact ⟨t.state, t.toggle, rfl⟩

/-- A write of a register outside the window leaves what every other register reads as: no two of them share a field,
so each pair but a register with itself, which `hne` excludes, reads the same by computation. -/
theorem State.putReg_readReg_ne_of_register {r r' : BusReg} (hr : r.isEntry = false) (hne : r' ≠ r) (s : State)
    (v : Word) : (s.putReg v r).readReg r' = s.readReg r' := by
  cases r with
  | vbuf k => cases hr
  | ibuf k => cases hr
  | ftCtl =>
    obtain ⟨st, b, ht⟩ := s.tracker.writeCtl_eq v
    unfold State.putReg
    rw [ht]
    cases r' <;> first | rfl | exact absurd rfl hne
  | _ => cases r' <;> first | rfl | exact absurd rfl hne

/-- So does a write of an entry, in a canonical memory. -/
theorem State.putReg_readReg_ne {s : State} (hm : s.mem.wf = true) {r r' : BusReg} (hne : r' ≠ r) (v : Word) :
    (s.putReg v r).readReg r' = s.readReg r' := by
  by_cases hr : r.isEntry = false
  · exact State.putReg_readReg_ne_of_register hr hne s v
  cases r with
  | vbuf k =>
    refine State.readReg_withMem (fun j hj => ?_) (fun j _ => ?_)
    · exact Memory.readHalf_writeHalf_ne hm (fun h => hne (hj.trans (congrArg _ (vbufWord_inj.mp h).symm))) _
    · exact Memory.readHalf_writeHalf_ne hm (vbufWord_ne_ibufWord k j) _
  | ibuf k =>
    refine State.readReg_withMem (fun j _ => ?_) (fun j hj => ?_)
    · exact Memory.readHalf_writeHalf_ne hm (vbufWord_ne_ibufWord j k).symm _
    · exact Memory.readHalf_writeHalf_ne hm (fun h => hne (hj.trans (congrArg _ (ibufWord_inj.mp h).symm))) _
  | _ => exact absurd rfl hr

theorem State.putReg_mem_of_register {r : BusReg} (hr : r.isEntry = false) (s : State) (v : Word) :
    (s.putReg v r).mem = s.mem := by
  cases r <;> first | rfl | cases hr

@[simp] theorem State.putReg_popLifted (s : State) (v : Word) (r : BusReg) :
    (s.putReg v r).popLifted = s.popLifted := by cases r <;> rfl
@[simp] theorem State.putReg_periodEvents (s : State) (v : Word) (r : BusReg) :
    (s.putReg v r).periodEvents = s.periodEvents := by cases r <;> rfl
@[simp] theorem State.putReg_busReads (s : State) (v : Word) (r : BusReg) :
    (s.putReg v r).busReads = s.busReads := by cases r <;> rfl
@[simp] theorem State.putReg_schedule (s : State) (v : Word) (r : BusReg) :
    (s.putReg v r).schedule = s.schedule := by cases r <;> rfl

theorem KeepsAllBut.refl (rs : List BusReg) (s : State) : KeepsAllBut rs s s := by
  constructor <;> intros <;> rfl

theorem KeepsAllBut.mono {rs rs' : List BusReg} {s t : State} (h : KeepsAllBut rs s t) (hsub : rs ⊆ rs') :
    KeepsAllBut rs' s t :=
  { h with regs := fun r hr => h.regs r fun hmem => hr (hsub hmem) }

/-- The frame of a register write outside the window. -/
theorem State.putReg_keepsAllBut {r : BusReg} (hr : r.isEntry = false) (s : State) (v : Word) :
    KeepsAllBut [r] s (s.putReg v r) where
  regs := fun r' hr' => State.putReg_readReg_ne_of_register hr (fun h => hr' (List.mem_singleton.mpr h)) s v
  bytes := fun a => by rw [State.putReg_mem_of_register hr]
  popLifted := s.putReg_popLifted v r
  periodEvents := s.putReg_periodEvents v r
  busReads := s.putReg_busReads v r
  schedule := s.putReg_schedule v r
  params := s.putReg_params v r

theorem State.cmdRefused_keepsAllBut (s : State) : KeepsAllBut [.status] s s.cmdRefused where
  regs := fun r hr => by cases r <;> first | rfl | exact absurd (List.mem_singleton_self _) hr
  bytes := fun _ => rfl
  popLifted := rfl
  periodEvents := rfl
  busReads := rfl
  schedule := rfl
  params := rfl

/-! ### What a class lets through -/

theorem State.readBus_of_decode {a : BusAddr} {r : BusReg} (hd : busDecode a = some r) (s : State) :
    s.readBus a = s.readReg r := by
  simp [State.readBus, hd]

theorem busWriteMove_register {a : BusAddr} {r : BusReg} (hd : busDecode a = some r) (hr : r ≠ .cmd) (v : Word)
    (s : State) : busWriteMove a v s = .next (s.hostWriteReg r v) := by
  unfold busWriteMove
  rw [hd]
  cases r <;> first | rfl | exact absurd rfl hr

/-- A scheduled bus write of a register is the host's write of it. -/
theorem step_busWrite {s : State} {a : BusAddr} {v : Word} {rest : List Event} {r : BusReg}
    (h : s.schedule = .busWrite a v :: rest) (hd : busDecode a = some r) (hr : r ≠ .cmd) :
    step s = .next (State.hostWriteReg { s with schedule := rest } r v) := by
  rw [step_of_schedule h]
  exact busWriteMove_register hd hr v _

theorem State.hostWriteReg_allowed {s : State} {r : BusReg} (h : s.hostMayWrite r.hostClass = true) (v : Word) :
    s.hostWriteReg r v = s.putReg v r := if_pos h

theorem State.hostWriteReg_forbidden {s : State} {r : BusReg} (h : s.hostMayWrite r.hostClass = false) (v : Word) :
    s.hostWriteReg r v = s := if_neg (by simp [h])

/-- `CMD` alone has the class of commands. -/
theorem BusReg.ne_cmd {r : BusReg} {c : HostClass} (h : r.hostClass = c) (hc : c ≠ .command) : r ≠ .cmd := by
  rintro rfl
  exact hc h.symm

/-- A write of a class A register while not halted, in either mode (R20). -/
theorem step_busWrite_a {s : State} {a : BusAddr} {v : Word} {rest : List Event} {r : BusReg}
    (h : s.schedule = .busWrite a v :: rest) (hd : busDecode a = some r) (hc : r.hostClass = .a)
    (hh : s.status.halted = false) : step s = .next (State.putReg { s with schedule := rest } v r) := by
  rw [step_busWrite h hd (BusReg.ne_cmd hc nofun), State.hostWriteReg_allowed]
  simp [hc, State.hostMayWrite, hh]

/-- A write of a class D register in DIRECT mode, while not halted (R20). -/
theorem step_busWrite_d {s : State} {a : BusAddr} {v : Word} {rest : List Event} {r : BusReg}
    (h : s.schedule = .busWrite a v :: rest) (hd : busDecode a = some r) (hc : r.hostClass = .d)
    (hr : s.ctrl.run = false) (hh : s.status.halted = false) :
    step s = .next (State.putReg { s with schedule := rest } v r) := by
  rw [step_busWrite h hd (BusReg.ne_cmd hc nofun), State.hostWriteReg_allowed]
  simp [hc, State.hostMayWrite, hr, hh]

/-- Settles O46: a forbidden register write answers the state it was made in (`hostWriteReg_forbidden`). -/
theorem forbiddenHostWritesAreIgnored : Obligations.ForbiddenHostWritesAreIgnored := by
  unfold Obligations.ForbiddenHostWritesAreIgnored
  intro s a v rest r h hd hforbidden
  have hne : r ≠ .cmd := by
    obtain hc | ⟨hc, -⟩ | ⟨hc, -⟩ := hforbidden <;> exact BusReg.ne_cmd hc nofun
  rw [step_busWrite h hd hne, State.hostWriteReg_forbidden]
  obtain hc | ⟨hc, hr | hh⟩ | ⟨hc, hh⟩ := hforbidden
  · simp [State.hostMayWrite, hc]
  · simp [State.hostMayWrite, hc, hr]
  · simp [State.hostMayWrite, hc, hh]
  · simp [State.hostMayWrite, hc, hh]

/-! ### Read after write -/

/-- A narrow register holds the low bits of the word written (R20). -/
theorem toNat_setWidth_setWidth {n : Nat} (hn : n ≤ 32) (v : Word) :
    ((v.setWidth n).setWidth 32).toNat = v.toNat % 2 ^ n := by
  rw [toNat_setWidth_word hn, BitVec.toNat_setWidth]

/-- One bit of a word, as a number. -/
theorem toNat_getLsbD (v : Word) (i : Nat) : (v.getLsbD i).toNat = v.toNat / 2 ^ i % 2 := by
  rw [← BitVec.testBit_toNat, Nat.toNat_testBit]

theorem toNat_pat (n : Nat) : (pat (n : Int)).toNat = n % 4294967296 := toNat_wrap32_natCast n

/-- Where each of the collaborators' registers stands, and that it is of class A. -/
theorem collaboratorMap_decode : ∀ row ∈ collaboratorMap,
    busDecode row.addr = some row.reg ∧ row.reg.hostClass = .a ∧ row.reg.isEntry = false := by decide

theorem State.putReg_readReg_collaborator (s : State) (v : Word) : ∀ row ∈ collaboratorMap,
    ((s.putReg v row.reg).readReg row.reg).toNat = v.toNat % 2 ^ row.bits := by
  simp only [collaboratorMap, List.forall_mem_cons]
  exact ⟨toNat_setWidth_setWidth (by decide) v, toNat_setWidth_setWidth (by decide) v,
    toNat_setWidth_setWidth (by decide) v, toNat_setWidth_setWidth (by decide) v,
    toNat_setWidth_setWidth (by decide) v, nofun⟩

/-- Settles O47: the write is allowed in both modes (`step_busWrite_a`), stores the register's bits and keeps the rest. -/
theorem classAWritesReadBack : Obligations.ClassAWritesReadBack := by
  unfold Obligations.ClassAWritesReadBack
  intro s v rest row hrow h hh
  obtain ⟨hd, hc, hr⟩ := collaboratorMap_decode row hrow
  refine ⟨_, step_busWrite_a h hd hc hh, ?_, State.putReg_keepsAllBut hr _ v⟩
  rw [State.readBus_of_decode hd]
  exact State.putReg_readReg_collaborator _ v row hrow

/-- The word a class D register without reserved values reads as after a write of `v`: its bits, a window entry's sign
extended (R20, R46). -/
def BusReg.stored (v : Word) : BusReg → Word
  | .pcur | .ccur => pat (v.toNat % 16 : Nat)
  | .boundary | .aggCtl => pat (v.toNat % 2 : Nat)
  | .vbuf _ | .ibuf _ => pat (BitVec.ofNat 16 v.toNat).toInt
  | _ => v

theorem State.putReg_readReg_d {s : State} (hm : s.mem.wf = true) {r : BusReg} (hc : r.hostClass = .d)
    (hpc : r ≠ .seqPc) (hft : r ≠ .ftCtl) (v : Word) : (s.putReg v r).readReg r = r.stored v := by
  have cursor : (v.setWidth 4).setWidth 32 = pat (v.toNat % 16 : Nat) := by
    apply BitVec.eq_of_toNat_eq
    rw [toNat_setWidth_setWidth (by decide), toNat_pat]
    omega
  have bit : bitWord (v.getLsbD 0) = pat (v.toNat % 2 : Nat) := by
    apply BitVec.eq_of_toNat_eq
    rw [toNat_bitWord, toNat_getLsbD, toNat_pat]
    omega
  have entry (w : Nat) : ((s.mem.writeHalf w (v.setWidth 16)).readHalf w).signExtend 32 =
      pat (BitVec.ofNat 16 v.toNat).toInt := by
    rw [Memory.readHalf_writeHalf_same hm]
    rfl
  cases r with
  | pcur => exact cursor
  | ccur => exact cursor
  | boundary => exact bit
  | aggCtl => exact bit
  | vbuf k => exact entry _
  | ibuf k => exact entry _
  | seqPc => exact absurd rfl hpc
  | ftCtl => exact absurd rfl hft
  | _ => first | rfl | cases hc

/-- Settles O49: the write is allowed (`step_busWrite_d`), reads back by `putReg_readReg_d`, and leaves every other
register (`putReg_readReg_ne`). -/
theorem directModeWritesReadBack : Obligations.DirectModeWritesReadBack := by
  unfold Obligations.DirectModeWritesReadBack
  intro s a v rest r h hm hr hh hd hc hpc hft
  refine ⟨_, step_busWrite_d h hd hc hr hh, ?_, fun r' hne => ?_⟩
  · rw [State.readBus_of_decode hd]
    refine (State.putReg_readReg_d (s := { s with schedule := rest }) hm hc hpc hft v).trans ?_
    cases r <;> rfl
  · exact State.putReg_readReg_ne (s := { s with schedule := rest }) hm hne v

/-! ### Reserved values (10_state R22, R38) -/

theorem setWidth_writeSeqPc (pc : BitVec 4) (v : Word) :
    (writeSeqPc pc v).setWidth 32 = if v.toNat ≤ 9 then v else pc.setWidth 32 := by
  unfold writeSeqPc
  split
  next hv =>
    apply BitVec.eq_of_toNat_eq
    rw [toNat_setWidth_setWidth (by decide)]
    omega
  next => rfl

/-- The value 3 names no state (R38). -/
theorem trackStateOf_eq_none_iff (c : BitVec 2) : trackStateOf c = none ↔ c.toNat = 3 := by
  revert c; decide

theorem trackNumber_of_trackStateOf {c : BitVec 2} {st : TrackState} (h : trackStateOf c = some st) :
    trackNumber st = c.toNat := by
  have all : ∀ c : BitVec 2, ∀ st ∈ trackStateOf c, trackNumber st = c.toNat := by decide
  exact all c st h

theorem ftCtlWord_writeCtl (t : TrackerRegs) (v : Word) :
    ftCtlWord (t.writeCtl v) = if v.toNat % 4 = 3 then ftCtlWord t else pat (v.toNat % 8 : Nat) := by
  have hfield : (v.extractLsb' 0 2).toNat = v.toNat % 4 := by simp [BitVec.extractLsb'_toNat]
  unfold TrackerRegs.writeCtl
  split
  next st hst =>
    have hne : v.toNat % 4 ≠ 3 := fun h3 => by
      rw [← hfield, ← trackStateOf_eq_none_iff, hst] at h3
      cases h3
    rw [if_neg hne]
    apply BitVec.eq_of_toNat_eq
    rw [toNat_ftCtlWord, toNat_pat, trackNumber_of_trackStateOf hst, hfield, toNat_getLsbD]
    omega
  next hnone =>
    rw [trackStateOf_eq_none_iff, hfield] at hnone
    rw [if_pos hnone]

/-- Settles O50: both writes are allowed (`step_busWrite_d`); what they store is `setWidth_writeSeqPc` and
`ftCtlWord_writeCtl`. -/
theorem reservedValuesAreNotWritten : Obligations.ReservedValuesAreNotWritten := by
  unfold Obligations.ReservedValuesAreNotWritten
  intro s v rest hr hh
  refine ⟨fun h => ?_, fun h => ?_⟩
  · exact ⟨_, step_busWrite_d (r := .seqPc) h (by decide) rfl hr hh, setWidth_writeSeqPc s.seqPc v,
      State.putReg_keepsAllBut rfl _ v⟩
  · exact ⟨_, step_busWrite_d (r := .ftCtl) h (by decide) rfl hr hh, ftCtlWord_writeCtl s.tracker v,
      State.putReg_keepsAllBut rfl _ v⟩

/-! ### CTRL, and writes in RUN mode -/

/-- Settles O51: the write of `CTRL` is allowed in both modes (`step_busWrite_a`); its two bits are `CtrlReg.write`'s. -/
theorem ctrlRunIsSetNeverCleared : Obligations.CtrlRunIsSetNeverCleared := by
  unfold Obligations.CtrlRunIsSetNeverCleared
  intro s v rest h hh
  have bit (i : Nat) : v.getLsbD i = decide (v.toNat / 2 ^ i % 2 = 1) := by
    rw [← BitVec.testBit_toNat, Nat.testBit_eq_decide_div_mod_eq]
  have run : (s.ctrl.write s.status.waiting v).run = (s.ctrl.run || (v.getLsbD 0 && !s.status.waiting)) := rfl
  refine ⟨_, step_busWrite_a (r := .ctrl) h (by decide) rfl hh, bit 1, fun hr => ?_, fun hr => ?_,
    State.putReg_keepsAllBut rfl _ v⟩
  · exact run.trans (by rw [hr, Bool.true_or])
  · exact run.trans (by rw [hr, Bool.false_or, bit, Nat.pow_zero, Nat.div_one])

theorem State.putReg_run {s : State} (hr : s.ctrl.run = true) (v : Word) (r : BusReg) :
    (s.putReg v r).ctrl.run = true := by
  cases r with
  | ctrl => exact (congrArg (· || _) hr).trans (Bool.true_or _)
  | _ => exact hr

/-- No register of class A is an entry of the window. -/
theorem BusReg.isEntry_of_classA {r : BusReg} (h : r.hostClass = .a) : r.isEntry = false := by
  cases r <;> first | rfl | cases h

/-- In RUN mode a `CMD` write is refused (R88). -/
theorem commandMove_run {s : State} (hr : s.ctrl.run = true) (w : Word) :
    commandMove w s = .next (if s.status.halted then s else s.cmdRefused) := by
  unfold commandMove
  rw [hr, Bool.true_or, if_pos rfl]
  split <;> rfl

/-- In RUN mode a register write changes a class A register or nothing. -/
theorem State.hostWriteReg_run {s : State} (hr : s.ctrl.run = true) (r : BusReg) (v : Word) :
    s.hostWriteReg r v = s ∨ r.hostClass = .a ∧ s.hostWriteReg r v = s.putReg v r := by
  by_cases hc : s.hostMayWrite r.hostClass = true
  · exact .inr ⟨State.hostMayWrite_run hr hc, State.hostWriteReg_allowed hc v⟩
  · exact .inl (State.hostWriteReg_forbidden (by simpa using hc) v)

/-- What a bus write in RUN mode may change: the class A registers and, where it is one of `CMD`, `CMD_ERR`. -/
structure RunWrite (a : BusAddr) (s t : State) : Prop where
  frame : KeepsAllBut [.ctrl, .tariffMode, .adcV, .adcI, .wcHms, .wcDays, .status] s t
  run : t.ctrl.run = true
  status : t.status = { s.status with cmdErr := s.status.cmdErr || decide (a = 0x0C) && !s.status.halted }

/-- A bus write that `CMD_ERR` does not record leaves `STATUS` as it is. -/
theorem RunWrite.of_status_eq {a : BusAddr} {s t : State} (ha : (decide (a = 0x0C) && !s.status.halted) = false)
    (hr : t.ctrl.run = true) (hs : t.status = s.status)
    (frame : KeepsAllBut [.ctrl, .tariffMode, .adcV, .adcI, .wcHms, .wcDays, .status] s t) : RunWrite a s t :=
  ⟨frame, hr, by rw [hs, ha, Bool.or_false]⟩

theorem RunWrite.command {s : State} (hr : s.ctrl.run = true) :
    RunWrite 0x0C s (if s.status.halted then s else s.cmdRefused) := by
  by_cases hh : s.status.halted = true
  · rw [if_pos hh]; exact .of_status_eq (by simp [hh]) hr rfl (.refl _ s)
  · rw [if_neg hh]; exact ⟨s.cmdRefused_keepsAllBut.mono (by simp), hr, by simp [hh]⟩

theorem RunWrite.register {a : BusAddr} {s : State} (ha : a ≠ 0x0C) (hr : s.ctrl.run = true) (r : BusReg) (v : Word) :
    RunWrite a s (s.hostWriteReg r v) := by
  obtain heq | ⟨hc, heq⟩ := State.hostWriteReg_run hr r v <;> rw [heq]
  · exact .of_status_eq (by simp [ha]) hr rfl (.refl _ s)
  · refine .of_status_eq (by simp [ha]) (State.putReg_run hr v r) (State.putReg_status s v r) ?_
    exact (State.putReg_keepsAllBut (BusReg.isEntry_of_classA hc) s v).mono
      (List.cons_subset.mpr ⟨List.mem_append_left [BusReg.status] (r.hostClass_a_iff.mp hc), List.nil_subset _⟩)

theorem busWriteMove_run {s : State} (hr : s.ctrl.run = true) (a : BusAddr) (v : Word) :
    ∃ t, busWriteMove a v s = .next t ∧ RunWrite a s t := by
  by_cases ha : a = 0x0C
  · subst ha
    exact ⟨_, commandMove_run hr v, .command hr⟩
  · cases hd : busDecode a with
    | none => exact ⟨s, by simp [busWriteMove, hd], .of_status_eq (by simp [ha]) hr rfl (.refl _ s)⟩
    | some r =>
      have hne : r ≠ .cmd := fun h => ha ((busDecode_eq_cmd_iff a).mp (h ▸ hd))
      exact ⟨_, busWriteMove_register hd hne v s, .register ha hr r v⟩

/-- Settles O48: in RUN mode a bus write is a class A register's, a refused `CMD` write or ignored
(`busWriteMove_run`). -/
theorem hostWritesOnlyClassAInRunMode : Obligations.HostWritesOnlyClassAInRunMode := by
  unfold Obligations.HostWritesOnlyClassAInRunMode
  intro s a v rest h hr
  obtain ⟨t, hstep, hwrite⟩ := busWriteMove_run (s := { s with schedule := rest }) hr a v
  exact ⟨t, (step_of_schedule h).trans hstep, hwrite.frame, hwrite.run, hwrite.status⟩

end Sys2Proof.Machine
end

section
/-! Part of the laws: `OVF` feeds back into nothing (10_state R27). Every function of the machine that answers a state,
an operation's end or a step's outcome answers the same up to `OVF` when `OVF` is set to anything before. -/

namespace Sys2Proof.Machine

/-! ### Blindness and how it composes -/

def State.withOvf (o : Bool) (s : State) : State := { s with status.ovf := o }

def Effect.withOvf (o : Bool) : Effect → Effect
  | .done s => .done (s.withOvf o)
  | .blocked s => .blocked (s.withOvf o)
  | .fatal c s => .fatal c (s.withOvf o)

/-- The outcome with `OVF` of its next state set to `o`. -/
def outcomeWithOvf (o : Bool) : Host.Outcome State Fault Refusal → Host.Outcome State Fault Refusal
  | .next s => .next (s.withOvf o)
  | .fault r => .fault r
  | .refused r => .refused r

/-- Setting `OVF` before changes at most `OVF` after; `w` sets it in what `f` answers. -/
def OvfBlind {α : Type} (w : Bool → α → α) (f : State → α) : Prop :=
  ∀ s o, ∃ o', f (s.withOvf o) = w o' (f s)

theorem OvfBlind.comp {α : Type} {w : Bool → α → α} {g : State → α} {f : State → State} (hg : OvfBlind w g)
    (hf : OvfBlind State.withOvf f) : OvfBlind w fun s => g (f s) := by
  intro s o
  obtain ⟨o₁, h₁⟩ := hf s o
  obtain ⟨o₂, h₂⟩ := hg (f s) o₁
  exact ⟨o₂, (congrArg g h₁).trans h₂⟩

/-- A branch on what is not `OVF`. -/
theorem OvfBlind.ite {α : Type} {w : Bool → α → α} {f g : State → α} {c : State → Prop} [DecidablePred c]
    (hc : ∀ s o, c (s.withOvf o) ↔ c s) (hf : OvfBlind w f) (hg : OvfBlind w g) :
    OvfBlind w fun s => if c s then f s else g s := by
  intro s o
  by_cases h : c s
  · simpa only [h, (hc s o).mpr h, if_true] using hf s o
  · simpa only [h, mt (hc s o).mp h, if_false] using hg s o

theorem OvfBlind.done {f : State → State} (hf : OvfBlind State.withOvf f) :
    OvfBlind Effect.withOvf fun s => .done (f s) :=
  OvfBlind.comp (g := Effect.done) (fun _ o => ⟨o, rfl⟩) hf

theorem OvfBlind.fatal {f : State → State} (c : Cause) (hf : OvfBlind State.withOvf f) :
    OvfBlind Effect.withOvf fun s => .fatal c (f s) :=
  OvfBlind.comp (g := Effect.fatal c) (fun _ o => ⟨o, rfl⟩) hf

theorem OvfBlind.next {f : State → State} (hf : OvfBlind State.withOvf f) :
    OvfBlind outcomeWithOvf fun s => .next (f s) :=
  OvfBlind.comp (g := Host.Outcome.next) (fun _ o => ⟨o, rfl⟩) hf

theorem OvfBlind.id : OvfBlind State.withOvf fun s => s := fun _ o => ⟨o, rfl⟩

theorem State.noteOvf_withOvf (s : State) (o o' : Bool) :
    (s.withOvf o).noteOvf o' = (s.noteOvf o').withOvf (o || o') := rfl

/-- A later line that uses a primitive's value. -/
theorem OvfBlind.andThen {c : State → Calc} {k : State → Word → State → Effect}
    (hc : ∀ s o, c (s.withOvf o) = c s) (hk : ∀ s o, k (s.withOvf o) = k s)
    (hbody : ∀ s w, OvfBlind Effect.withOvf (k s w)) :
    OvfBlind Effect.withOvf fun s => (c s).andThen s (k s) := by
  intro s o
  beta_reduce
  rw [hc, hk]
  cases c s with
  | value r => exact hbody s r.val (s.noteOvf r.ovf) (o || r.ovf)
  | fatal cause oc => exact ⟨o || oc, rfl⟩

/-! ### The operations' bodies -/

theorem OvfBlind.putRes (w : Word) : OvfBlind State.withOvf fun s => s.putRes w := fun _ o => ⟨o, rfl⟩

theorem OvfBlind.accumulateSample : OvfBlind State.withOvf State.accumulateSample := fun _ _ => ⟨_, rfl⟩

theorem OvfBlind.pushSample : OvfBlind State.withOvf State.pushSample := fun _ _ => ⟨_, rfl⟩

theorem OvfBlind.popBody : OvfBlind Effect.withOvf popBody :=
  OvfBlind.ite (c := fun s => s.channel.avail = 0) (fun _ _ => Iff.rfl) (fun _ o => ⟨o, rfl⟩)
    (OvfBlind.done fun _ _ => ⟨_, rfl⟩)

theorem OvfBlind.finpBody : OvfBlind Effect.withOvf finpBody :=
  OvfBlind.ite (c := fun s => s.agg.count = 0) (fun _ _ => Iff.rfl) (OvfBlind.fatal _ .id)
    (OvfBlind.done fun _ o => ⟨o, rfl⟩)

theorem OvfBlind.finrmsCurrent (n : Nat) : OvfBlind Effect.withOvf (finrmsCurrent n) :=
  OvfBlind.andThen (c := fun s => sqrtQ (meanUnsigned s.agg.sumI2 s.agg.count) s.agg.seedI n) (fun _ _ => rfl)
    (fun _ _ => rfl) fun _ _ => OvfBlind.done fun _ _ => ⟨_, rfl⟩

theorem OvfBlind.finrmsBody : OvfBlind Effect.withOvf finrmsBody :=
  OvfBlind.ite (c := fun s => s.agg.count = 0) (fun _ _ => Iff.rfl) (OvfBlind.fatal _ .id)
    (OvfBlind.andThen (fun _ _ => rfl) (fun _ _ => rfl) fun s _ =>
      (OvfBlind.finrmsCurrent (rmsIterations s.agg.rmsCold)).comp fun _ _ => ⟨_, rfl⟩)

theorem OvfBlind.energyCarryStep : OvfBlind State.withOvf State.energyCarryStep :=
  OvfBlind.ite (c := fun s => energyCarry.toInt ≤ s.energy.eAcc.toInt) (fun _ _ => Iff.rfl) (fun _ _ => ⟨_, rfl⟩) .id

theorem OvfBlind.integrateEnergy : OvfBlind State.withOvf State.integrateEnergy :=
  OvfBlind.energyCarryStep.comp fun _ _ => ⟨_, rfl⟩

theorem OvfBlind.centCarryStep : OvfBlind State.withOvf State.centCarryStep :=
  OvfBlind.ite (c := fun s => mcCarry.toInt < s.bill.mcAcc.toInt) (fun _ _ => Iff.rfl) (fun _ _ => ⟨_, rfl⟩) .id

theorem OvfBlind.dollarCarryStep : OvfBlind State.withOvf State.dollarCarryStep :=
  OvfBlind.ite (c := fun s => centsCarry < s.bill.cents.toNat) (fun _ _ => Iff.rfl) (fun _ _ => ⟨_, rfl⟩) .id

theorem OvfBlind.billCycle : OvfBlind State.withOvf State.billCycle :=
  OvfBlind.dollarCarryStep.comp (OvfBlind.centCarryStep.comp fun _ _ => ⟨_, rfl⟩)

theorem OvfBlind.estimatePf : OvfBlind State.withOvf State.estimatePf :=
  OvfBlind.ite (c := fun s => (muluQ s.totals.vrms s.totals.irms).val = 0) (fun _ _ => Iff.rfl) (fun _ _ => ⟨_, rfl⟩)
    fun _ _ => ⟨_, rfl⟩

theorem OvfBlind.exitCrossing (x f : Word) : OvfBlind Effect.withOvf fun s => exitCrossing s x f :=
  OvfBlind.ite
    (c := fun s => freqDivisor (newPeriod s.tracker.period s.tracker.count s.tracker.entry f).val = 0)
    (fun _ _ => Iff.rfl) (OvfBlind.fatal _ fun _ _ => ⟨_, rfl⟩) (OvfBlind.done fun _ _ => ⟨_, rfl⟩)

/-- The LOCKED step's count of this sample. -/
def State.countSample (s : State) : State :=
  { s.noteOvf (increment s.tracker.count).ovf with tracker.count := (increment s.tracker.count).val }

theorem lockedStep_eq (s : State) (x : Word) : lockedStep s x =
    if risingCrossing s.tracker.prev x then
      if s.tracker.toggle then exitCrossing s.countSample x (crossingFraction x s.tracker.prev)
      else .done ((s.countSample.enterCycle (crossingFraction x s.tracker.prev)).rememberSample x)
    else .done (s.countSample.rememberSample x) := rfl

theorem OvfBlind.countSample : OvfBlind State.withOvf State.countSample := fun _ _ => ⟨_, rfl⟩

theorem OvfBlind.rememberSample (x : Word) : OvfBlind State.withOvf fun s => s.rememberSample x := fun _ o => ⟨o, rfl⟩

theorem OvfBlind.enterCycle (f : Word) : OvfBlind State.withOvf fun s => s.enterCycle f := fun _ o => ⟨o, rfl⟩

theorem OvfBlind.lockOn (prev x : Word) : OvfBlind State.withOvf fun s => s.lockOn prev x := fun _ o => ⟨o, rfl⟩

theorem OvfBlind.lockedStep (x : Word) : OvfBlind Effect.withOvf fun s => lockedStep s x := by
  intro s o
  beta_reduce
  rw [lockedStep_eq s]
  exact OvfBlind.ite (c := fun t => risingCrossing t.tracker.prev x) (fun _ _ => Iff.rfl)
    (OvfBlind.ite (c := fun t => t.tracker.toggle) (fun _ _ => Iff.rfl)
      ((OvfBlind.exitCrossing x (crossingFraction x s.tracker.prev)).comp .countSample)
      (.done ((OvfBlind.rememberSample x).comp ((OvfBlind.enterCycle _).comp .countSample))))
    (.done ((OvfBlind.rememberSample x).comp .countSample)) s o

theorem OvfBlind.ftstepBody : OvfBlind Effect.withOvf ftstepBody := by
  intro s o
  have hbegin : (s.withOvf o).beginStep = s.beginStep.withOvf o := rfl
  have htracker : (s.withOvf o).tracker = s.tracker := rfl
  unfold Machine.ftstepBody
  dsimp only
  rw [hbegin, htracker]
  cases s.tracker.state with
  | unsynced => exact ⟨o, rfl⟩
  | tracking =>
    exact OvfBlind.ite (c := fun _ => risingCrossing s.tracker.prev s.regs.rV) (fun _ _ => Iff.rfl)
      (.done ((OvfBlind.rememberSample _).comp (OvfBlind.lockOn _ _))) (.done (OvfBlind.rememberSample _)) s.beginStep o
  | locked => exact OvfBlind.lockedStep s.regs.rV s.beginStep o

/-! ### Operations -/

theorem OvfBlind.advance : OvfBlind State.withOvf State.advance :=
  OvfBlind.ite (c := fun s => s.ctrl.run) (fun _ _ => Iff.rfl) (fun _ o => ⟨o, rfl⟩) .id

theorem Effect.finish_withOvf (op : BitVec 8) (e : Effect) (o : Bool) :
    ∃ o', (e.withOvf o).finish op = (e.finish op).withOvf o' := by
  cases e with
  | done s => exact OvfBlind.advance s o
  | blocked s => exact ⟨o, rfl⟩
  | fatal c s => exact ⟨o, rfl⟩

/-- An enveloped operation is blind if its body is. -/
theorem OvfBlind.operate {body : State → Effect} (i : Instr) (hbody : OvfBlind Effect.withOvf body) :
    OvfBlind outcomeWithOvf (operate i body) := by
  refine OvfBlind.ite (c := fun s => s.status.halted) (fun _ _ => Iff.rfl) (.next .id) (.next fun s o => ?_)
  obtain ⟨o₁, h₁⟩ := hbody s o
  rw [h₁]
  exact (body s).finish_withOvf i.opcode o₁

theorem OvfBlind.cmdRefused : OvfBlind State.withOvf State.cmdRefused := fun _ o => ⟨o, rfl⟩

theorem OvfBlind.transfer {f : State → BitVec 4} (hf : ∀ s o, f (s.withOvf o) = f s) :
    OvfBlind outcomeWithOvf (transfer f) := by
  refine OvfBlind.ite (c := fun s => s.status.halted) (fun _ _ => Iff.rfl) (.next .id)
    (OvfBlind.ite (c := fun s => s.ctrl.run) (fun _ _ => Iff.rfl) (.next fun s o => ⟨o, ?_⟩) (.next .cmdRefused))
  rw [hf]
  rfl

/-- A primitive whose value goes to RES. -/
theorem OvfBlind.calc {c : State → Calc} (hc : ∀ s o, c (s.withOvf o) = c s) :
    OvfBlind Effect.withOvf fun s => (c s).andThen s fun w t => .done (t.putRes w) :=
  OvfBlind.andThen hc (fun _ _ => rfl) fun _ w => .done (.putRes w)

theorem OvfBlind.exec (i : Instr) : OvfBlind outcomeWithOvf (exec i) := by
  cases i with
  | nop => exact .operate _ (.done .id)
  | toq16 => exact .operate _ (.done fun _ o => ⟨o, rfl⟩)
  | mul => exact .operate _ (.done fun _ _ => ⟨_, rfl⟩)
  | mulu => exact .operate _ (.done fun _ _ => ⟨_, rfl⟩)
  | div => exact .operate _ (.calc fun _ _ => rfl)
  | divu => exact .operate _ (.calc fun _ _ => rfl)
  | sqrt n => exact .operate _ (.calc fun _ _ => rfl)
  | push => exact .operate _ (.done .pushSample)
  | pop => exact .operate _ .popBody
  | ftstep => exact .operate _ .ftstepBody
  | acc => exact .operate _ (.done .accumulateSample)
  | finp => exact .operate _ .finpBody
  | finrms => exact .operate _ .finrmsBody
  | fine => exact .operate _ (.done .integrateEnergy)
  | bill => exact .operate _ (.done .billCycle)
  | finpf => exact .operate _ (.done .estimatePf)
  | bnb t => exact .transfer fun _ _ => rfl
  | jmp t => exact .transfer fun _ _ => rfl

/-! ### The agents' moves -/

theorem OvfBlind.consumerMove : OvfBlind outcomeWithOvf consumerMove := by
  refine OvfBlind.ite (c := fun s => s.status.halted) (fun _ _ => Iff.rfl) (.next .id)
    (OvfBlind.ite (c := fun s => s.status.waiting) (fun _ _ => Iff.rfl)
      (OvfBlind.ite (c := fun s => s.popMayResume) (fun _ _ => Iff.rfl) (.exec .pop) (.next .id))
      (OvfBlind.ite (c := fun s => s.ctrl.run) (fun _ _ => Iff.rfl) (fun s o => ?_) (.next .id)))
  have hpc : (s.withOvf o).seqPc = s.seqPc := rfl
  rw [hpc]
  cases fetchOperation s.seqPc with
  | some i => exact OvfBlind.exec i s o
  | none => exact ⟨o, rfl⟩

theorem OvfBlind.commandMove (w : Word) : OvfBlind outcomeWithOvf (commandMove w) := by
  refine OvfBlind.ite (c := fun s => s.status.halted) (fun _ _ => Iff.rfl) (.next .id)
    (OvfBlind.ite (c := fun s => s.ctrl.run || s.status.waiting) (fun _ _ => Iff.rfl) (.next .cmdRefused) ?_)
  cases decode w with
  | ok i => exact OvfBlind.exec i
  | error _ => exact .next .cmdRefused

theorem OvfBlind.putReg (v : Word) (r : BusReg) : OvfBlind State.withOvf fun s => s.putReg v r := by
  cases r <;> exact fun _ o => ⟨o, rfl⟩

theorem OvfBlind.hostWriteReg (r : BusReg) (v : Word) : OvfBlind State.withOvf fun s => s.hostWriteReg r v :=
  OvfBlind.ite (c := fun s => s.hostMayWrite r.hostClass) (fun _ _ => by cases r.hostClass <;> rfl) (.putReg v r) .id

theorem OvfBlind.busWriteMove (a : BusAddr) (v : Word) : OvfBlind outcomeWithOvf (busWriteMove a v) := by
  cases hd : busDecode a with
  | none =>
    have hmove : Machine.busWriteMove a v = .next := by funext s; simp [Machine.busWriteMove, hd]
    rw [hmove]
    exact .next .id
  | some r =>
    by_cases hr : r = .cmd
    · have hmove : Machine.busWriteMove a v = Machine.commandMove v := by
        funext s; simp [Machine.busWriteMove, hd, hr]
      rw [hmove]
      exact .commandMove v
    · rw [funext fun s => busWriteMove_register hd hr v s]
      exact .next (.hostWriteReg r v)

theorem OvfBlind.tickMove (v i : Half) : OvfBlind State.withOvf fun s => s.tickMove v i :=
  OvfBlind.ite (c := fun s => s.status.halted) (fun _ _ => Iff.rfl) .id
    (OvfBlind.pushSample.comp fun _ o => ⟨o, rfl⟩)

theorem OvfBlind.assertWaitFail : OvfBlind State.withOvf State.assertWaitFail :=
  OvfBlind.ite (c := fun s => s.popSuspended) (fun _ _ => Iff.rfl) (fun _ o => ⟨o, rfl⟩) .id

/-- Every move but a bus read, which may return `STATUS` itself. -/
theorem OvfBlind.applyEvent {e : Event} (he : ∀ a, e ≠ .busRead a) : OvfBlind outcomeWithOvf (applyEvent e) := by
  cases e with
  | consumer => exact .consumerMove
  | tick v i => exact .next (.tickMove v i)
  | busWrite a v => exact .busWriteMove a v
  | busRead a => exact absurd rfl (he a)
  | waitFail => exact .next .assertWaitFail
  | reset u => exact .next fun _ _ => ⟨false, rfl⟩

/-- Settles O53: no branch, value or address of any move but a bus read depends on `OVF` (`OvfBlind.applyEvent`). -/
theorem ovfFeedsBackIntoNothing : Obligations.OvfFeedsBackIntoNothing := by
  unfold Obligations.OvfFeedsBackIntoNothing
  intro s t o he h
  obtain ⟨o', ho'⟩ := OvfBlind.applyEvent he s.popped o
  rw [← step_eq, h] at ho'
  exact ⟨o', (step_eq (s.withOvf o)).trans ho'⟩

end Sys2Proof.Machine
end

section
/-! Part of the laws: a bus read has no side effect (20_memory R67), and what an address reads as (10_state R20, R49). -/

namespace Sys2Proof.Machine

open Sys2Proof.Statements

/-- The read port does not see the coming moves. -/
theorem State.readReg_withSchedule (s : State) (es : List Event) (r : BusReg) :
    ({ s with schedule := es } : State).readReg r = s.readReg r := by
  cases r <;> rfl

theorem State.readBus_withSchedule (s : State) (es : List Event) (a : BusAddr) :
    ({ s with schedule := es } : State).readBus a = s.readBus a := by
  unfold State.readBus
  cases busDecode a with
  | some r => exact s.readReg_withSchedule es r
  | none => rfl

theorem State.readBus_unmapped {a : BusAddr} (hd : busDecode a = none) (s : State) : s.readBus a = 0 := by
  simp [State.readBus, hd]

/-- A scheduled bus read adds its data to the reads' trace and changes nothing else. -/
theorem step_busRead {s : State} {a : BusAddr} {rest : List Event} (h : s.schedule = .busRead a :: rest) :
    step s = .next { s with schedule := rest, busReads := s.busReads ++ [⟨a, s.readBus a⟩] } := by
  rw [step_of_schedule h, ← s.readBus_withSchedule rest a]
  rfl

theorem step_busWrite_unmapped {s : State} {a : BusAddr} {v : Word} {rest : List Event}
    (h : s.schedule = .busWrite a v :: rest) (hd : busDecode a = none) :
    step s = .next { s with schedule := rest } := by
  rw [step_of_schedule h]
  simp [applyEvent, busWriteMove, hd]

/-- Settles O45: the read by `step_busRead`; what an address reads as, and that an unmapped one ignores writes, by
where the address map sends it (`busDecodeIsTheAddressMap`). -/
theorem busReadsHaveNoSideEffect : Obligations.BusReadsHaveNoSideEffect := by
  unfold Obligations.BusReadsHaveNoSideEffect
  intro s a rest
  obtain ⟨rows, -, gaps⟩ := busDecodeIsTheAddressMap
  refine ⟨step_busRead, ?_, fun k => ⟨fun ha => State.readBus_of_decode (busDecode_vbuf ha) s,
    fun ha => State.readBus_of_decode (busDecode_ibuf ha) s⟩, fun ha => ?_⟩
  · rintro row hrow rfl
    exact State.readBus_of_decode (rows row hrow).1 s
  · have hd : busDecode a = none := (gaps a).mpr ha
    exact ⟨State.readBus_unmapped hd s, fun v h => step_busWrite_unmapped h hd⟩

end Sys2Proof.Machine
end

section
/-! Part of the laws: the window is a first-in first-out queue (20_memory R73, 41_samplechannel R126). What PUSH and POP
do to the entry pairs first, then to the queue. -/

namespace Sys2Proof.Machine

open Sys2Proof.Statements

/-! ### Entry pairs and cursors -/

theorem State.windowPair_congr {s t : State} (h : t.mem = s.mem) (k : BitVec 4) : t.windowPair k = s.windowPair k :=
  Prod.ext (State.vbuf_congr h k) (State.ibuf_congr h k)

theorem State.pushSample_windowPair_same {s : State} (hm : s.mem.wf = true) :
    s.pushSample.windowPair s.channel.pcur = (s.inputs.adcV, s.inputs.adcI) := by
  refine Prod.ext ?_ (Memory.readHalf_writeHalf_same (Memory.wf_writeHalf hm _ _) _ _)
  exact (Memory.readHalf_writeHalf_ne (Memory.wf_writeHalf hm _ _) (vbufWord_ne_ibufWord _ _).symm _).trans
    (Memory.readHalf_writeHalf_same hm _ _)

theorem State.pushSample_windowPair_ne {s : State} (hm : s.mem.wf = true) {k : BitVec 4} (hk : k ≠ s.channel.pcur) :
    s.pushSample.windowPair k = s.windowPair k := by
  have hm' := Memory.wf_writeHalf hm (vbufWord s.channel.pcur) s.inputs.adcV
  refine Prod.ext ?_ ?_
  · exact (Memory.readHalf_writeHalf_ne hm' (vbufWord_ne_ibufWord _ _).symm _).trans
      (Memory.readHalf_writeHalf_ne hm (mt vbufWord_inj.mp hk.symm) _)
  · exact (Memory.readHalf_writeHalf_ne hm' (mt ibufWord_inj.mp hk.symm) _).trans
      (Memory.readHalf_writeHalf_ne hm (vbufWord_ne_ibufWord _ _) _)

/-- In lockstep the producer's cursor stands `AVAIL` entries after the consumer's (R37). -/
theorem State.pcur_eq_of_lockstep {s : State} (h : s.lockstep) :
    s.channel.pcur = s.channel.ccur + BitVec.ofNat 4 s.channel.avail.toNat := by
  rw [BitVec.ofNat_toNat]
  exact sub_eq_iff_eq_add'.mp h

/-- Fewer than 16 entries on from a cursor, no entry comes twice. -/
theorem cursor_add_ne {j n : Nat} (hj : j < n) (hn : n ≤ 15) (c : BitVec 4) :
    c + BitVec.ofNat 4 j ≠ c + BitVec.ofNat 4 n := by
  intro h
  have heq := congrArg BitVec.toNat (BitVec.add_right_inj c |>.mp h)
  rw [BitVec.toNat_ofNat, BitVec.toNat_ofNat] at heq
  omega

/-! ### The queue -/

theorem State.queued_congr {s t : State} (hm : t.mem = s.mem) (hc : t.channel = s.channel) : t.queued = s.queued := by
  unfold State.queued
  rw [hc]
  exact List.map_congr_left fun _ _ => State.windowPair_congr hm _

@[simp] theorem State.advance_queued (s : State) : s.advance.queued = s.queued :=
  State.queued_congr s.advance_mem s.advance_channel

/-- A PUSH appends its pair: with at most 15 pending pairs the entry it stores to is none of theirs. -/
theorem State.pushSample_queued {s : State} (hm : s.mem.wf = true) (hl : s.lockstep)
    (ha : s.channel.avail.toNat ≤ 15) : s.pushSample.queued = s.queued ++ [(s.inputs.adcV, s.inputs.adcI)] := by
  have havail : s.pushSample.channel.avail.toNat = s.channel.avail.toNat + 1 := by
    rw [State.pushSample_channel, increment_val, BitVec.toNat_ofNat]
    omega
  have hpcur := State.pcur_eq_of_lockstep hl
  unfold State.queued
  rw [havail, List.range_succ, List.map_append, List.map_singleton, State.pushSample_channel, ← hpcur,
    State.pushSample_windowPair_same hm]
  congr 1
  refine List.map_congr_left fun j hj => State.pushSample_windowPair_ne hm ?_
  rw [hpcur]
  exact cursor_add_ne (List.mem_range.mp hj) ha _

/-- A POP takes the pair at the consumer's cursor, the oldest, off the queue. -/
theorem State.takeSample_queued {s : State} (ha : s.channel.avail ≠ 0) :
    s.queued = s.windowPair s.channel.ccur :: s.takeSample.queued := by
  have havail : s.channel.avail.toNat = s.takeSample.channel.avail.toNat + 1 := by
    rw [State.takeSample_channel]
    bv_omega
  unfold State.queued
  rw [havail, List.range_succ_eq_map, List.map_cons, List.map_map]
  refine congrArg₂ List.cons (congrArg s.windowPair (BitVec.add_zero _)) (List.map_congr_left fun j _ => ?_)
  have hcursor : s.channel.ccur + BitVec.ofNat 4 (j + 1) = s.channel.ccur + 1#4 + BitVec.ofNat 4 j := by
    rw [BitVec.ofNat_add, BitVec.add_comm (BitVec.ofNat 4 j), BitVec.add_assoc]
  exact (congrArg s.windowPair hcursor).trans (State.windowPair_congr s.takeSample_mem _).symm

/-- CONV's value is the wrap of the statements' exact steps (R124). -/
theorem conv_val (p : Params) (code ratio : Int) : (conv p code ratio).val = pat (convExact p code ratio).2 := rfl

/-- Settles O22: PUSH by `pushSample_queued`, POP by `takeSample_queued`; both keep the lockstep (`exec_lockstep`). -/
theorem windowIsAFifoInLockstep : Obligations.WindowIsAFifoInLockstep := by
  unfold Obligations.WindowIsAFifoInLockstep
  intro s hm hh hl
  refine ⟨fun ha => ?_, fun ha => ?_⟩
  · have hexec := exec_push hh
    exact ⟨_, hexec, exec_lockstep hexec hl, by rw [State.advance_queued, State.pushSample_queued hm hl ha]⟩
  · have hexec := exec_pop_take hh ha
    refine ⟨_, s.vbuf s.channel.ccur, s.ibuf s.channel.ccur, hexec, exec_lockstep hexec hl, ?_, ?_, ?_⟩
    · rw [State.advance_queued]
      exact State.takeSample_queued ha
    · rw [State.advance_regs]
      exact conv_val s.params _ 100
    · rw [State.advance_regs]
      exact conv_val s.params _ 1

end Sys2Proof.Machine
end

section
/-! Part of the laws: the operation word (30_encoding R80, R83, R84, R90). What a word decodes to is said by its three
fields, once; that decoder and encoder agree, and which words are executable, follow. -/

namespace Sys2Proof

/-! ### The fields of a word, in numbers -/

theorem opcodeField_toNat (w : Word) : (opcodeField w).toNat = w.toNat % 256 := by
  simp [opcodeField]

theorem argField_toNat (w : Word) : (argField w).toNat = w.toNat / 256 % 256 := by
  simp [argField, Nat.shiftRight_eq_div_pow]

theorem zeroField_eq_zero_iff (w : Word) : zeroField w = 0 ↔ w.toNat / 65536 = 0 := by
  have hw := w.isLt
  simp only [zeroField, ← BitVec.toNat_inj, BitVec.extractLsb'_toNat, Nat.shiftRight_eq_div_pow, BitVec.ofNat_eq_ofNat,
    BitVec.toNat_zero]
  omega

/-- A word is its three fields. -/
theorem word_eq_of_fields {w w' : Word} (ho : opcodeField w = opcodeField w') (ha : argField w = argField w')
    (hz : zeroField w = 0) (hz' : zeroField w' = 0) : w = w' := by
  have ho := congrArg BitVec.toNat ho
  have ha := congrArg BitVec.toNat ha
  rw [opcodeField_toNat, opcodeField_toNat] at ho
  rw [argField_toNat, argField_toNat] at ha
  rw [zeroField_eq_zero_iff] at hz hz'
  apply BitVec.eq_of_toNat_eq
  omega

/-! ### The rows of the opcode map -/

/-- The `arg` values a format allows (R84). -/
def Format.allows : Format → BitVec 8 → Prop
  | .z, a => a = 0
  | .n, _ => True
  | .t, a => a.toNat ≤ 9

theorem OpcodeRow.decodeArg_eq_ok_iff (row : OpcodeRow) (a : BitVec 8) (i : Instr) :
    row.decodeArg a = .ok i ↔ row.format.allows a ∧ row.build a = i := by
  unfold decodeArg
  split <;> rename_i hf <;> rw [hf]
  · split <;> simp_all [Format.allows]
  · simp [Format.allows]
  · split <;> simp_all [Format.allows, isRomIndex]

/-- What a row builds from an `arg` its format allows is well formed and has the row's opcode and this `arg`. -/
theorem OpcodeRow.build_spec {row : OpcodeRow} (hrow : row ∈ opcodeTable) {a : BitVec 8} (ha : row.format.allows a) :
    (row.build a).wf = true ∧ (row.build a).opcode = row.opcode ∧ (row.build a).arg = a := by
  fin_cases hrow <;> simp_all [Format.allows, Instr.wf, Instr.opcode, Instr.arg, isRomIndex]

/-- The opcode map has a row for every well-formed operation. -/
theorem Instr.exists_row {i : Instr} (h : i.wf = true) :
    ∃ row ∈ opcodeTable, row.opcode = i.opcode ∧ row.format.allows i.arg ∧ row.build i.arg = i := by
  cases i <;> simp_all [opcodeTable, Format.allows, Instr.wf, Instr.opcode, Instr.arg, isRomIndex]

/-- The decoder finds the one row of an opcode. -/
theorem opcodeTable_find?_eq_some_iff (op : BitVec 8) (row : OpcodeRow) :
    opcodeTable.find? (fun r => r.opcode == op) = some row ↔ row ∈ opcodeTable ∧ row.opcode = op := by
  refine ⟨fun h => ⟨List.mem_of_find?_eq_some h, by simpa using List.find?_some h⟩, ?_⟩
  rintro ⟨hrow, rfl⟩
  obtain ⟨found, hfound⟩ : ∃ found, opcodeTable.find? (fun r => r.opcode == row.opcode) = some found :=
    Option.isSome_iff_exists.mp (List.find?_isSome.mpr ⟨row, hrow, beq_self_eq_true row.opcode⟩)
  have hop : found.opcode = row.opcode := by simpa using List.find?_some hfound
  rw [hfound, List.inj_on_of_nodup_map opcodeTable_opcodes_distinct (List.mem_of_find?_eq_some hfound) hrow hop]

/-! ### What a word decodes to -/

/-- The decoding rule R84 by the rows of the opcode map. -/
theorem decode_eq_ok_iff_row (w : Word) (i : Instr) :
    decode w = .ok i ↔ zeroField w = 0 ∧ ∃ row ∈ opcodeTable, row.opcode = opcodeField w ∧
      row.format.allows (argField w) ∧ row.build (argField w) = i := by
  have find (row : OpcodeRow) := opcodeTable_find?_eq_some_iff (opcodeField w) row
  unfold decode
  split
  next hz => exact ⟨nofun, fun h => absurd h.1 hz⟩
  next hz =>
    rw [and_iff_right (not_not.mp hz)]
    split
    next hnone => simp_all
    next row hrow =>
      rw [row.decodeArg_eq_ok_iff]
      obtain ⟨hmem, hop⟩ := (find row).mp hrow
      refine ⟨fun h => ⟨row, hmem, hop, h⟩, fun ⟨row', hmem', hop', h⟩ => ?_⟩
      have heq : row = row' := Option.some.inj (hrow.symm.trans ((find row').mpr ⟨hmem', hop'⟩))
      exact heq ▸ h

/-- The decoding rule R84 by the fields: a word decodes to the well-formed operation with its opcode and its `arg`. -/
theorem decode_eq_ok_iff (w : Word) (i : Instr) :
    decode w = .ok i ↔ zeroField w = 0 ∧ i.wf = true ∧ i.opcode = opcodeField w ∧ i.arg = argField w := by
  rw [decode_eq_ok_iff_row]
  refine and_congr_right fun _ => ⟨?_, ?_⟩
  · rintro ⟨row, hrow, hop, hallows, rfl⟩
    exact hop ▸ row.build_spec hrow hallows
  · rintro ⟨hwf, hop, harg⟩
    rw [← hop, ← harg]
    exact Instr.exists_row hwf

/-- Settles O1: the fields of an operation's word (`fields_of_word`) are those `decode_eq_ok_iff` asks for. -/
theorem decodeOfEncodeIsIdentity : Obligations.DecodeOfEncodeIsIdentity := by
  unfold Obligations.DecodeOfEncodeIsIdentity
  intro i hwf
  obtain ⟨hop, harg, hzero⟩ := Laws.EncodeFields.of_encode i
  exact (decode_eq_ok_iff _ i).mpr ⟨hzero, hwf, hop.symm, harg.symm⟩

/-- Settles O2: an executable word has the three fields of its operation's word, and a word is its fields. -/
theorem encodeOfDecodeIsIdentity : Obligations.EncodeOfDecodeIsIdentity := by
  unfold Obligations.EncodeOfDecodeIsIdentity
  intro w i h
  obtain ⟨hzero, hwf, hop, harg⟩ := (decode_eq_ok_iff w i).mp h
  obtain ⟨hop', harg', hzero'⟩ := Laws.EncodeFields.of_encode i
  exact ⟨hwf, word_eq_of_fields (hop'.trans hop) (harg'.trans harg) hzero' hzero⟩

/-! ### Which words are executable -/

/-- The opcodes of a format (R83), in numbers. -/
def Format.opcodes : Format → List Nat
  | .z => [0, 1, 2, 3, 4, 5, 0x10, 0x11, 0x20, 0x30, 0x31, 0x32, 0x40, 0x50, 0x60]
  | .n => [6]
  | .t => [0x70, 0x71]

theorem exists_row_iff_mem_opcodes (op : BitVec 8) (f : Format) :
    (∃ row ∈ opcodeTable, row.opcode = op ∧ row.format = f) ↔ op.toNat ∈ f.opcodes := by
  cases f <;>
    simp [opcodeTable, Format.opcodes, or_and_right, exists_or, ← BitVec.toNat_inj, eq_comm (b := op.toNat)]

/-- R84: an executable word has an opcode of a format that allows its `arg`. -/
theorem exists_decode_eq_ok_iff (w : Word) : (∃ i, decode w = .ok i) ↔
    zeroField w = 0 ∧ ∃ f : Format, (opcodeField w).toNat ∈ f.opcodes ∧ f.allows (argField w) := by
  simp only [decode_eq_ok_iff_row, ← exists_row_iff_mem_opcodes]
  constructor
  · rintro ⟨-, hz, row, hrow, hop, hallows, -⟩
    exact ⟨hz, row.format, ⟨row, hrow, hop, rfl⟩, hallows⟩
  · rintro ⟨hz, -, ⟨row, hrow, hop, rfl⟩, hallows⟩
    exact ⟨_, hz, row, hrow, hop, hallows, rfl⟩

theorem Format.exists_iff (p : Format → Prop) : (∃ f, p f) ↔ p .z ∨ p .n ∨ p .t := by
  constructor
  · rintro ⟨_ | _ | _, h⟩
    · exact .inl h
    · exact .inr (.inl h)
    · exact .inr (.inr h)
  · rintro (h | h | h) <;> exact ⟨_, h⟩

/-- Settles O3: the opcodes of each format with the `arg` it allows (`exists_decode_eq_ok_iff`), read off the word's
fields. -/
theorem executableWordsAreTheOpcodeMap : Obligations.ExecutableWordsAreTheOpcodeMap := by
  unfold Obligations.ExecutableWordsAreTheOpcodeMap
  intro w
  rw [exists_decode_eq_ok_iff, zeroField_eq_zero_iff, Format.exists_iff]
  refine and_congr_right fun hz => ?_
  have harg : (argField w).toNat = w.toNat / 256 := (argField_toNat w).trans (Nat.mod_eq_of_lt (by omega))
  simp only [Format.opcodes, Format.allows, opcodeField_toNat, ← BitVec.toNat_inj, harg, List.mem_singleton, and_true,
    BitVec.ofNat_eq_ofNat, BitVec.toNat_zero]

/-- Settles O4: the decoder evaluated at fourteen words. -/
theorem wordsOfTheSpecDecodeRight : Obligations.WordsOfTheSpecDecodeRight := by
  unfold Obligations.WordsOfTheSpecDecodeRight
  decide

end Sys2Proof
end

section
/-! Part of the laws: a write of `CMD` (10_state R31, 30_encoding R86, R88), one equation per case, then the step. -/

namespace Sys2Proof.Machine

/-! ### The write -/

theorem commandMove_halted {s : State} (hh : s.status.halted = true) (w : Word) : commandMove w s = .next s :=
  if_pos hh

/-- In RUN mode or while a POP waits, any word is refused. -/
theorem commandMove_busy {s : State} (hh : s.status.halted = false) (hb : s.ctrl.run = true ∨ s.status.waiting = true)
    (w : Word) : commandMove w s = .next s.cmdRefused := by
  simp [commandMove, hh, hb]

theorem commandMove_executes {s : State} {w : Word} {i : Instr} (hh : s.status.halted = false)
    (hr : s.ctrl.run = false) (hw : s.status.waiting = false) (hd : decode w = .ok i) : commandMove w s = exec i s := by
  simp [commandMove, hh, hr, hw, hd]

theorem commandMove_unexecutable {s : State} {w : Word} (hh : s.status.halted = false)
    (hd : ∀ i, decode w ≠ .ok i) : commandMove w s = .next s.cmdRefused := by
  unfold commandMove
  rw [hh, if_neg Bool.false_ne_true]
  split
  · rfl
  · split
    next i hi => exact absurd hi (hd i)
    next => rfl

/-- R88: every way a `CMD` write is refused. -/
theorem commandMove_refused {s : State} {w : Word} (hh : s.status.halted = false)
    (h : (∀ i, decode w ≠ .ok i) ∨ (∃ t, decode w = .ok (.bnb t) ∨ decode w = .ok (.jmp t)) ∨ s.ctrl.run = true ∨
      s.status.waiting = true) : commandMove w s = .next s.cmdRefused := by
  by_cases hb : s.ctrl.run = true ∨ s.status.waiting = true
  · exact commandMove_busy hh hb w
  · obtain ⟨hr, hw⟩ : s.ctrl.run = false ∧ s.status.waiting = false := by simpa using hb
    obtain hd | ⟨t, hd | hd⟩ | h := h
    · exact commandMove_unexecutable hh hd
    · exact (commandMove_executes hh hr hw hd).trans (exec_bnb_direct t hh hr)
    · exact (commandMove_executes hh hr hw hd).trans (exec_jmp_direct t hh hr)
    · exact absurd h hb

/-! ### The step -/

/-- A scheduled bus write to the address of `CMD` is a `CMD` write. -/
theorem step_busWrite_cmd {s : State} {w : Word} {rest : List Event} (h : s.schedule = .busWrite 0x0C w :: rest) :
    step s = commandMove w { s with schedule := rest } :=
  step_of_schedule h

/-- Settles O7: the write is refused for each of the four reasons (`commandMove_refused`), and nothing while halted. -/
theorem refusedCmdWriteOnlySetsCmdErr : Obligations.RefusedCmdWriteOnlySetsCmdErr := by
  unfold Obligations.RefusedCmdWriteOnlySetsCmdErr
  intro s w rest hs
  rw [step_busWrite_cmd hs]
  exact ⟨fun hh h => commandMove_refused hh h, fun hh => commandMove_halted (s := { s with schedule := rest }) hh w⟩

/-- Settles O5: the write is the decoded operation's execution (`commandMove_executes`). -/
theorem stepRunsTheWordWrittenToCmd : Obligations.StepRunsTheWordWrittenToCmd := by
  unfold Obligations.StepRunsTheWordWrittenToCmd
  intro s w rest i hs hh hr hw hd
  rw [step_busWrite_cmd hs]
  exact commandMove_executes hh hr hw hd

end Sys2Proof.Machine
end

section
/-! Part of the laws: the frame of each way an operation ends, on the bus: completed (`State.advance`), or halted by a
fatal condition (`State.takeFatal`), with the flag that its arithmetic raised (`State.noteOvf`). -/

namespace Sys2Proof.Machine

/-! ### Frames of the state updates -/

theorem KeepsAllBut.trans {rs : List BusReg} {s t u : State} (h : KeepsAllBut rs s t) (h' : KeepsAllBut rs t u) :
    KeepsAllBut rs s u where
  regs := fun r hr => (h'.regs r hr).trans (h.regs r hr)
  bytes := fun a => (h'.bytes a).trans (h.bytes a)
  popLifted := h'.popLifted.trans h.popLifted
  periodEvents := h'.periodEvents.trans h.periodEvents
  busReads := h'.busReads.trans h.busReads
  schedule := h'.schedule.trans h.schedule
  params := h'.params.trans h.params

theorem State.noteOvf_keepsAllBut (s : State) (o : Bool) : KeepsAllBut [.status] s (s.noteOvf o) where
  regs := fun r hr => by
    cases r with
    | status => exact absurd (List.mem_singleton_self _) hr
    | _ => rfl
  bytes := fun _ => rfl
  popLifted := rfl
  periodEvents := rfl
  busReads := rfl
  schedule := rfl
  params := rfl

theorem State.withSeqPc_keepsAllBut (s : State) (pc : BitVec 4) : KeepsAllBut [.seqPc] s { s with seqPc := pc } where
  regs := fun r hr => by
    cases r with
    | seqPc => exact absurd (List.mem_singleton_self _) hr
    | _ => rfl
  bytes := fun _ => rfl
  popLifted := rfl
  periodEvents := rfl
  busReads := rfl
  schedule := rfl
  params := rfl

theorem State.advance_keepsAllBut (s : State) : KeepsAllBut [.seqPc] s s.advance := by
  unfold State.advance
  split
  · exact s.withSeqPc_keepsAllBut _
  · exact .refl _ s

theorem State.takeFatal_keepsAllBut (s : State) (op : BitVec 8) (c : Cause) :
    KeepsAllBut [.status, .fault] s (s.takeFatal op c) where
  regs := fun r hr => by
    cases r with
    | status => exact absurd List.mem_cons_self hr
    | fault => exact absurd (List.mem_cons_of_mem _ (List.mem_singleton_self _)) hr
    | _ => rfl
  bytes := fun _ => rfl
  popLifted := rfl
  periodEvents := rfl
  busReads := rfl
  schedule := rfl
  params := rfl

theorem State.putRes_keepsAllBut (s : State) (w : Word) : KeepsAllBut [.res] s (s.putRes w) :=
  State.putReg_keepsAllBut (r := .res) rfl s w

theorem State.noteOvf_false (s : State) : s.noteOvf false = s := by simp [State.noteOvf]

/-! ### The two ends -/

/-- An operation that ends in `done u` completes, if its body's writes to `STATUS` are its `ovf()` calls. -/
theorem Completes.of_body {rs : List BusReg} {o : Bool} {s u : State} (frame : KeepsAllBut (.status :: rs) s u)
    (status : u.status = { s.status with ovf := s.status.ovf || o }) (seqPc : u.seqPc = s.seqPc)
    (ctrl : u.ctrl = s.ctrl) : Completes rs o s u.advance where
  frame := (frame.mono (List.cons_subset_cons _ (List.subset_cons_self _ _))).trans
    (u.advance_keepsAllBut.mono (by simp))
  status := by rw [State.advance_status, status]
  seqPc := by rw [State.advance_seqPc, seqPc, ctrl]

/-- An operation that raises `Fatal` in `u` halts, if its body's writes to `STATUS` by then are its `ovf()` calls. -/
theorem Halts.of_body {i : Instr} {c : Cause} {rs : List BusReg} {o : Bool} {s u : State}
    (frame : KeepsAllBut (.status :: rs) s u) (status : u.status = { s.status with ovf := s.status.ovf || o })
    (seqPc : u.seqPc = s.seqPc) (ctrl : u.ctrl = s.ctrl) : Halts i c rs o s (u.takeFatal i.opcode c) where
  frame := (frame.mono (List.cons_subset_cons _ (List.subset_cons_self _ _))).trans
    ((u.takeFatal_keepsAllBut i.opcode c).mono (by simp))
  status := by rw [State.takeFatal_status, status]
  fault := by rw [State.takeFatal_fault, seqPc, ctrl]

/-- The end of an operation whose one result goes to `RES`. -/
theorem State.putRes_completes (s : State) (o : Bool) (w : Word) :
    Completes [.res] o s ((s.noteOvf o).putRes w).advance :=
  .of_body
    (((s.noteOvf_keepsAllBut o).mono (by simp)).trans (((s.noteOvf o).putRes_keepsAllBut w).mono (by simp))) rfl rfl rfl

/-- The end of an operation whose arithmetic raises `Fatal` before anything is written. -/
theorem State.takeFatal_halts (s : State) (i : Instr) (c : Cause) (o : Bool) :
    Halts i c [] o s ((s.noteOvf o).takeFatal i.opcode c) :=
  .of_body (s.noteOvf_keepsAllBut o) rfl rfl rfl

theorem State.putRes_advance_res (s : State) (w : Word) : (s.putRes w).advance.regs.res = w := by
  rw [State.advance_regs, State.putRes_regs]

end Sys2Proof.Machine
end

section
/-! Part of the laws: the FixedPointMath operations (40_fixedpointmath R102 to R107) in the terms of the statements. -/

namespace Sys2Proof.Machine

open Sys2Proof.Statements

/-! ### TOQ16, MUL, MULU -/

theorem lowHalfSigned_eq (w : Word) : lowHalfSigned w = (BitVec.ofNat 16 w.toNat).toInt := rfl

/-- The result of R102 always fits. -/
theorem toInt_toQ16 (h : Half) : (toQ16 h.toInt).toInt = h.toInt * 65536 := by
  have hlo := h.le_toInt
  have hhi := h.toInt_lt
  exact toInt_wrap32 (by omega) (by omega)

/-- Settles O8: the result fits (`toInt_toQ16`), so TOQ16 raises no flag. -/
theorem toq16ShiftsTheSignedLowHalf : Obligations.Toq16ShiftsTheSignedLowHalf := by
  unfold Obligations.Toq16ShiftsTheSignedLowHalf
  intro s hh
  refine ⟨_, exec_toq16 hh, ?_, ?_⟩
  · rw [State.putRes_advance_res, lowHalfSigned_eq, toInt_toQ16]
  · have hc := s.putRes_completes false (toQ16 (lowHalfSigned s.regs.opa))
    rwa [State.noteOvf_false] at hc

/-- An operation that stores a flagged result in `RES` and completes. -/
theorem exists_completes_of_exec {i : Instr} {s : State} {r : Flagged} {o : Bool}
    (h : exec i s = .next ((s.noteOvf r.ovf).putRes r.val).advance) (ho : r.ovf = o) :
    ∃ t, exec i s = .next t ∧ t.regs.res = r.val ∧ Completes [.res] o s t :=
  ⟨_, h, State.putRes_advance_res _ _, ho ▸ s.putRes_completes r.ovf r.val⟩

/-- Settles O9: `mulQ` is the floor of the exact product, narrowed. -/
theorem mulFloorsTheSignedProduct : Obligations.MulFloorsTheSignedProduct := by
  unfold Obligations.MulFloorsTheSignedProduct
  intro s hh
  obtain ⟨t, hexec, hres, hcompletes⟩ := exists_completes_of_exec (exec_mul hh) (mulQ_ovf _ _)
  exact ⟨t, hexec, hres.trans (mulQ_val _ _), hcompletes⟩

/-- Settles O10: `muluQ` is the exact product's quotient by 65536, narrowed. -/
theorem muluDropsTheLowProductBits : Obligations.MuluDropsTheLowProductBits := by
  unfold Obligations.MuluDropsTheLowProductBits
  intro s hh
  obtain ⟨t, hexec, hres, hcompletes⟩ := exists_completes_of_exec (exec_mulu hh) (muluQ_ovf _ _)
  exact ⟨t, hexec, by rw [hres, muluQ_val, BitVec.toNat_ofNat]; rfl, hcompletes⟩

/-! ### DIV, DIVU -/

/-- Settles O11: `divQ` is the exact quotient narrowed; the zero divisor's halt comes before any write. -/
theorem divRoundsTowardZero : Obligations.DivRoundsTowardZero := by
  unfold Obligations.DivRoundsTowardZero
  intro s hh
  constructor
  · intro hb
    exact exists_completes_of_exec (exec_div hh hb) (narrowS_ovf _)
  · intro hb
    exact ⟨_, exec_div_zero hh hb, s.takeFatal_halts .div .divZero false⟩

/-- Settles O12: `divuQ` is the exact quotient narrowed; the zero divisor's halt comes before any write. -/
theorem divuDividesUnsigned : Obligations.DivuDividesUnsigned := by
  unfold Obligations.DivuDividesUnsigned
  intro s hh
  constructor
  · intro hb
    obtain ⟨t, hexec, hres, hcompletes⟩ := exists_completes_of_exec (exec_divu hh hb) (divuQ_ovf _ _)
    exact ⟨t, hexec, by rw [hres, divuQ_val, BitVec.toNat_ofNat]; rfl, hcompletes⟩
  · intro hb
    exact ⟨_, exec_divu_zero hh hb, s.takeFatal_halts .divu .divZero false⟩

/-! ### SQRT -/

theorem newtonStep_val_eq_nextIterate (r x : Word) : (newtonStep r x).val = nextIterate r x := newtonStep_val r x

theorem newtonStep_ovf_eq_iterateOverflows (r x : Word) : (newtonStep r x).ovf = iterateOverflows r x :=
  newtonStep_ovf r x

/-- The value of R107 along a run. -/
theorem sqrtQ_run {r g : Word} {n : Nat} {x : Nat → Word} (hg : g ≠ 0) (h : IsNewtonRun r g n x) :
    sqrtQ r g n = .value ⟨x n, runOverflows r n x⟩ := by
  obtain ⟨rfl, hstep⟩ := h
  simp only [← newtonStep_val_eq_nextIterate] at hstep
  rw [sqrtQ_nonzero r hg, newtonLoop_run r n x false hstep, Bool.false_or]
  simp only [newtonStep_ovf_eq_iterateOverflows, runOverflows]

/-- The fatal condition of R107 at a zero iterate with an iteration left. -/
theorem sqrtQ_zeroIterate {r g : Word} {n k : Nat} {x : Nat → Word} (hg : g ≠ 0) (hk : k < n)
    (h : IsNewtonRun r g k x) (hz : x k = 0) : sqrtQ r g n = .fatal .divZero (runOverflows r k x) := by
  obtain ⟨rfl, hstep⟩ := h
  simp only [← newtonStep_val_eq_nextIterate] at hstep
  rw [sqrtQ_nonzero r hg, newtonLoop_zero r n k x false hk hz hstep, Bool.false_or]
  simp only [newtonStep_ovf_eq_iterateOverflows, runOverflows]

/-- Settles O13: SQRT does with `sqrtQ`'s answer what DIV does with a quotient; the answer is the run's last iterate
(`sqrtQ_run`), or one of the two fatal conditions (`sqrtQ_zeroSeed`, `sqrtQ_zeroIterate`). -/
theorem sqrtRunsExactlyNIterations : Obligations.SqrtRunsExactlyNIterations := by
  unfold Obligations.SqrtRunsExactlyNIterations
  intro s n hh
  refine ⟨?_, ?_, ?_⟩
  · intro x hg hrun
    exact exists_completes_of_exec (exec_sqrt_value hh (sqrtQ_run hg hrun)) rfl
  · intro hg
    exact ⟨_, exec_sqrt_fatal hh (hg ▸ sqrtQ_zeroSeed _ _), s.takeFatal_halts (.sqrt n) .zeroSeed false⟩
  · intro k x hg hk hrun hz
    exact ⟨_, exec_sqrt_fatal hh (sqrtQ_zeroIterate hg hk hrun hz), s.takeFatal_halts (.sqrt n) .divZero _⟩

end Sys2Proof.Machine
end

section
/-! Part of the laws: the source's stated properties of the Q16 primitives (40_fixedpointmath R112, R113). -/

namespace Sys2Proof.Machine

open Sys2Proof.Statements

/-! ### MUL of DIV (R112) -/

theorem divQ_toInt {a b : Word} (h : (divQ a b).ovf = false) : (divQ a b).val.toInt = divExact a b := by
  have hovf : outS (divExact a b) = false := (narrowS_ovf _).symm.trans h
  simp only [outS, Bool.or_eq_false_iff, decide_eq_false_iff_not, not_lt] at hovf
  exact toInt_wrap32 hovf.1 hovf.2

theorem mulQ_of_fits {a b : Word} (hlo : -2147483648 ≤ mulExact a b) (hhi : mulExact a b ≤ 2147483647) :
    (mulQ a b).ovf = false ∧ (mulQ a b).val.toInt = mulExact a b := by
  constructor
  · rw [mulQ_ovf]
    simp only [Bool.or_eq_false_iff, decide_eq_false_iff_not, not_lt]
    exact ⟨hlo, hhi⟩
  · rw [mulQ_val]
    exact toInt_wrap32 hlo hhi

/-- Settles O14: the quotient times the divisor is at most the shifted dividend and above it less the divisor; the
product's floor loses less than 65536 more. -/
theorem mulOfDivStaysWithinTheDivisor : Obligations.MulOfDivStaysWithinTheDivisor := by
  unfold Obligations.MulOfDivStaysWithinTheDivisor
  intro a b ha hb hovf
  have hq : (divQ a b).val.toInt = a.toInt * 65536 / b.toInt := by
    rw [divQ_toInt hovf, divExact, Int.tdiv_eq_ediv_of_nonneg (by omega)]
  have hle : a.toInt * 65536 / b.toInt * b.toInt ≤ a.toInt * 65536 := Int.ediv_mul_le _ hb.ne'
  have hgt : a.toInt * 65536 < (a.toInt * 65536 / b.toInt + 1) * b.toInt := Int.lt_ediv_add_one_mul_self _ hb
  have hnonneg : 0 ≤ a.toInt * 65536 / b.toInt * b.toInt :=
    mul_nonneg (Int.ediv_nonneg (by omega) hb.le) hb.le
  have hmax : a.toInt ≤ 2147483647 := Int.le_of_lt_add_one a.toInt_lt
  have hm : mulExact (divQ a b).val b = a.toInt * 65536 / b.toInt * b.toInt / 65536 := by rw [mulExact, hq]
  obtain ⟨hfits, hval⟩ := mulQ_of_fits (a := (divQ a b).val) (b := b) (by omega) (by omega)
  rw [add_mul, one_mul] at hgt
  exact ⟨hfits, by omega, by omega⟩

/-! ### Newton's iteration in naturals

R107's iterate without its wraps, for the shifted radicand `N`: it falls from any start above the root and stops at the
integer square root. -/

/-- One iteration on naturals. -/
def newtonIter (N x : Nat) : Nat := (N / x + x) / 2

/-- No iterate is below the integer root: the arithmetic mean is at least the geometric one. -/
theorem sqrt_le_newtonIter (N : Nat) {x : Nat} (hx : 0 < x) : Nat.sqrt N ≤ newtonIter N x := by
  have hmean : 2 * Nat.sqrt N - x ≤ N / x := by
    rw [Nat.le_div_iff_mul_le hx]
    refine le_trans ?_ (Nat.sqrt_le N)
    obtain hle | hgt := Nat.le_total (2 * Nat.sqrt N) x
    · simp [Nat.sub_eq_zero_of_le hle]
    · zify [hgt]
      nlinarith [sq_nonneg ((Nat.sqrt N : Int) - x)]
  unfold newtonIter
  omega

/-- The integer root, and its successor, are followed by the integer root, unless `N + 1` is a square. -/
theorem newtonIter_eq_sqrt {N x : Nat} (hx : 0 < x) (hN : N < Nat.sqrt N * (Nat.sqrt N + 2)) (hlo : Nat.sqrt N ≤ x)
    (hhi : x ≤ Nat.sqrt N + 1) : newtonIter N x = Nat.sqrt N := by
  refine le_antisymm ?_ (sqrt_le_newtonIter N hx)
  have hdiv : N / x < 2 * Nat.sqrt N + 2 - x := by
    rw [Nat.div_lt_iff_lt_mul hx]
    obtain rfl | rfl : x = Nat.sqrt N ∨ x = Nat.sqrt N + 1 := by omega
    · rwa [show 2 * Nat.sqrt N + 2 - Nat.sqrt N = Nat.sqrt N + 2 by omega, mul_comm]
    · rw [show 2 * Nat.sqrt N + 2 - (Nat.sqrt N + 1) = Nat.sqrt N + 1 by omega]
      exact Nat.lt_succ_sqrt N
  unfold newtonIter
  omega

/-- The relative error `(x - √N) / (x + √N)` is at least squared by an iteration. -/
theorem newtonIter_contracts {N x : Nat} {q : ℝ} (hx : 0 < x) (hroot : √(N : ℝ) ≤ x) (hq1 : q ^ 2 ≤ 1)
    (h : (x : ℝ) - √N ≤ q * (x + √N)) :
    (newtonIter N x : ℝ) - √N ≤ q ^ 2 * (newtonIter N x + √N) := by
  have hx0 : (0 : ℝ) < x := by exact_mod_cast hx
  have hs : √(N : ℝ) ^ 2 = N := Real.sq_sqrt (Nat.cast_nonneg N)
  have hstep : 2 * (x : ℝ) * newtonIter N x ≤ √N ^ 2 + x ^ 2 := by
    have hnat : 2 * x * newtonIter N x ≤ N + x ^ 2 := by
      have hhalf : newtonIter N x * 2 ≤ N / x + x := Nat.div_mul_le_self _ _
      have hdiv : N / x * x ≤ N := Nat.div_mul_le_self _ _
      calc 2 * x * newtonIter N x = newtonIter N x * 2 * x := by ring
        _ ≤ (N / x + x) * x := Nat.mul_le_mul_right x hhalf
        _ = N / x * x + x ^ 2 := by ring
        _ ≤ N + x ^ 2 := Nat.add_le_add_right hdiv _
    rw [hs]
    exact_mod_cast hnat
  have hsq : ((x : ℝ) - √N) ^ 2 ≤ q ^ 2 * (x + √N) ^ 2 := by
    rw [← mul_pow]
    exact pow_le_pow_left₀ (sub_nonneg.mpr hroot) h 2
  have hscaled : 2 * (x : ℝ) * (newtonIter N x * (1 - q ^ 2)) ≤ 2 * x * (√N * (1 + q ^ 2)) := by
    nlinarith [mul_le_mul_of_nonneg_right hstep (sub_nonneg.mpr hq1)]
  linarith [le_of_mul_le_mul_left hscaled (by positivity)]

section
variable {N g : Nat} {q : ℝ}

/-- After `k` iterations from above the root: the integer root has been met, or the relative error is below
`q ^ (2 ^ k)`. -/
theorem newtonIter_iterate (hpos : 0 < Nat.sqrt N) (hN : N < Nat.sqrt N * (Nat.sqrt N + 2)) (hg : Nat.sqrt N ≤ g)
    (hq0 : 0 ≤ q) (hq1 : q ≤ 1) (h : (g : ℝ) - √N ≤ q * (g + √N)) (k : Nat) :
    Nat.sqrt N ≤ (newtonIter N)^[k] g ∧
      ((newtonIter N)^[k] g = Nat.sqrt N ∨
        ((newtonIter N)^[k] g : ℝ) - √N ≤ q ^ 2 ^ k * ((newtonIter N)^[k] g + √N)) := by
  induction k with
  | zero => exact ⟨hg, .inr (by simpa using h)⟩
  | succ k ih =>
    rw [Function.iterate_succ_apply']
    obtain ⟨hlo, herr⟩ := ih
    have hx : 0 < (newtonIter N)^[k] g := hpos.trans_le hlo
    refine ⟨sqrt_le_newtonIter N hx, ?_⟩
    obtain heq | hlt := hlo.eq_or_lt
    · exact .inl (newtonIter_eq_sqrt hx hN hlo (by omega))
    · have hroot : √(N : ℝ) ≤ (newtonIter N)^[k] g :=
        Real.real_sqrt_lt_nat_sqrt_succ.le.trans (by exact_mod_cast hlt)
      rw [pow_succ, pow_mul]
      exact .inr (newtonIter_contracts hx hroot (pow_le_one₀ (by positivity) (pow_le_one₀ hq0 hq1))
        (herr.resolve_left hlt.ne'))

/-- Once the error is below one, the next iterate is the integer root. -/
theorem newtonIter_iterate_succ_eq_sqrt (hpos : 0 < Nat.sqrt N) (hN : N < Nat.sqrt N * (Nat.sqrt N + 2))
    (hg : Nat.sqrt N ≤ g) (hq0 : 0 ≤ q) (hq1 : q ≤ 1) (h : (g : ℝ) - √N ≤ q * (g + √N)) {k : Nat}
    (hk : q ^ 2 ^ k * (2 * √N + 1) ≤ 1) : (newtonIter N)^[k + 1] g = Nat.sqrt N := by
  obtain ⟨hlo, herr⟩ := newtonIter_iterate hpos hN hg hq0 hq1 h k
  rw [Function.iterate_succ_apply']
  refine newtonIter_eq_sqrt (hpos.trans_le hlo) hN hlo ?_
  by_contra! hfar
  have hx : √(N : ℝ) + 1 < (newtonIter N)^[k] g := by
    have : (Nat.sqrt N + 1 + 1 : ℝ) ≤ (newtonIter N)^[k] g := by exact_mod_cast hfar
    linarith [Real.real_sqrt_lt_nat_sqrt_succ (a := N)]
  have hroot : 0 < √(N : ℝ) := Real.sqrt_pos.mpr (by exact_mod_cast Nat.sqrt_pos.mp hpos)
  have hp : q ^ 2 ^ k < 1 := by nlinarith
  nlinarith [herr.resolve_left (by omega)]

end

/-! ### SQRT of small integers (R113) -/

/-- A Newton step on words whose quotient and sum fit is the iteration on naturals, and raises no flag. -/
theorem nextIterate_of_fits {r x : Word} (h : r.toNat * 65536 / x.toNat + x.toNat < 4294967296) :
    (nextIterate r x).toNat = newtonIter (r.toNat * 65536) x.toNat ∧ iterateOverflows r x = false := by
  unfold nextIterate iterateOverflows newtonIter divuExact
  rw [Nat.mod_eq_of_lt (by omega : r.toNat * 65536 / x.toNat < 4294967296), Nat.mod_eq_of_lt h, BitVec.toNat_ofNat]
  refine ⟨Nat.mod_eq_of_lt ((Nat.div_le_self _ _).trans_lt h), ?_⟩
  simp only [Bool.or_eq_false_iff, decide_eq_false_iff_not]
  omega

/-- The iterates of a run that starts at its radicand. -/
def selfSeeded (r : Word) (k : Nat) : Word := (nextIterate r)^[k] r

theorem selfSeeded_succ (r : Word) (k : Nat) : selfSeeded r (k + 1) = nextIterate r (selfSeeded r k) :=
  Function.iterate_succ_apply' _ _ _

theorem toNat_toQ16 {c : Nat} (h : c < 65536) : (toQ16 c).toNat = c * 65536 := by
  unfold toQ16
  rw [show (c : Int) * 65536 = ((c * 65536 : Nat) : Int) by push_cast; rfl, toNat_wrap32_natCast]
  omega

section
variable {c : Nat} (h1 : 1 ≤ c) (h2 : c ≤ 1000)
include h1 h2

theorem natSqrt_shifted_bounds : 65536 ≤ Nat.sqrt (c * 4294967296) ∧ Nat.sqrt (c * 4294967296) < 2097152 :=
  ⟨Nat.le_sqrt.mpr (by omega), Nat.sqrt_lt.mpr (by omega)⟩

/-- Between these bounds neither the quotient nor the sum overflows, and an iteration stays between them. -/
theorem newtonIter_bounds {x : Nat} (hlo : 65536 ≤ x) (hhi : x < 67108864) :
    c * 4294967296 / x < 67108864 ∧ 65536 ≤ newtonIter (c * 4294967296) x ∧
      newtonIter (c * 4294967296) x < 67108864 := by
  have hq : c * 4294967296 / x < 67108864 := by
    rw [Nat.div_lt_iff_lt_mul (by omega)]
    omega
  refine ⟨hq, (natSqrt_shifted_bounds h1 h2).1.trans (sqrt_le_newtonIter _ (by omega)), ?_⟩
  unfold newtonIter
  omega

/-- Every iterate of `SQRT(x, x, n)` is the natural iterate, and within the bounds. -/
theorem toNat_selfSeeded (k : Nat) :
    (selfSeeded (toQ16 c) k).toNat = (newtonIter (c * 4294967296))^[k] (c * 65536) ∧
      65536 ≤ (selfSeeded (toQ16 c) k).toNat ∧ (selfSeeded (toQ16 c) k).toNat < 67108864 := by
  have hr : (toQ16 c).toNat = c * 65536 := toNat_toQ16 (by omega)
  induction k with
  | zero =>
    have h0 : selfSeeded (toQ16 c) 0 = toQ16 c := rfl
    rw [h0, hr]
    exact ⟨rfl, by omega, by omega⟩
  | succ k ih =>
    obtain ⟨hval, hlo, hhi⟩ := ih
    obtain ⟨hq, hlo', hhi'⟩ := newtonIter_bounds h1 h2 hlo hhi
    have hN : (toQ16 c).toNat * 65536 = c * 4294967296 := by omega
    have hstep := (nextIterate_of_fits (r := toQ16 c) (x := selfSeeded (toQ16 c) k) (by rw [hN]; omega)).1
    rw [selfSeeded_succ, hstep, hN, Function.iterate_succ_apply', ← hval]
    exact ⟨rfl, hlo', hhi'⟩

theorem selfSeeded_ne_zero (k : Nat) : selfSeeded (toQ16 c) k ≠ 0 := by
  intro h0
  have hlo := (toNat_selfSeeded h1 h2 k).2.1
  rw [h0] at hlo
  exact absurd hlo (by decide)

theorem selfSeeded_not_overflows (k : Nat) : iterateOverflows (toQ16 c) (selfSeeded (toQ16 c) k) = false := by
  obtain ⟨-, hlo, hhi⟩ := toNat_selfSeeded h1 h2 k
  have hq := (newtonIter_bounds h1 h2 hlo hhi).1
  have hN : (toQ16 c).toNat * 65536 = c * 4294967296 := by
    rw [toNat_toQ16 (by omega)]
    omega
  exact (nextIterate_of_fits (by rw [hN]; omega)).2

theorem sqrtQ_selfSeeded (n : Nat) : sqrtQ (toQ16 c) (toQ16 c) n = .value ⟨selfSeeded (toQ16 c) n, false⟩ := by
  have hrun : IsNewtonRun (toQ16 c) (toQ16 c) n (selfSeeded (toQ16 c)) :=
    ⟨rfl, fun k _ => ⟨selfSeeded_ne_zero h1 h2 k, selfSeeded_succ _ k⟩⟩
  have hovf : runOverflows (toQ16 c) n (selfSeeded (toQ16 c)) = false :=
    List.any_eq_false.mpr fun k _ => by simp [selfSeeded_not_overflows h1 h2 k]
  have hguess : toQ16 c ≠ 0 := selfSeeded_ne_zero h1 h2 0
  rw [sqrtQ_run hguess hrun, hovf]

/-- No shifted radicand is one below a square: `m (m + 2)` with `m = 2 j` is `4 j (j + 1)`, and `2 ^ 30` would divide
one of the coprime `j` and `j + 1`. -/
theorem shifted_lt_sqrt_mul : c * 4294967296 < Nat.sqrt (c * 4294967296) * (Nat.sqrt (c * 4294967296) + 2) := by
  obtain ⟨hlo, hhi⟩ := natSqrt_shifted_bounds h1 h2
  have hle : c * 4294967296 ≤ Nat.sqrt (c * 4294967296) * (Nat.sqrt (c * 4294967296) + 2) := by
    nlinarith [Nat.lt_succ_sqrt (c * 4294967296)]
  refine lt_of_le_of_ne hle fun heq => ?_
  generalize Nat.sqrt (c * 4294967296) = m at *
  obtain ⟨j, rfl⟩ : 2 ∣ m := by
    have hdvd : 2 ∣ m * (m + 2) := heq ▸ Dvd.intro_left (c * 2147483648) (by ring)
    obtain h | h := Nat.prime_two.dvd_mul.mp hdvd <;> omega
  have hdvd : 2 ^ 30 ∣ j * (j + 1) := ⟨c, by linarith⟩
  have hcop : Nat.Coprime j (j + 1) := by simp
  obtain h | h := (hcop.isPrimePow_dvd_mul (Nat.prime_two.isPrimePow.pow (by decide))).mp hdvd
  · have := Nat.le_of_dvd (by omega) h
    omega
  · have := Nat.le_of_dvd (by omega) h
    omega

/-- The guess `x` is at most 32 times the root of `x`, so its relative error is at most 31/33, and 15 iterations bring
it to the integer root. -/
theorem newtonIter_iterate_shifted :
    (newtonIter (c * 4294967296))^[15] (c * 65536) = Nat.sqrt (c * 4294967296) := by
  obtain ⟨hlo, hhi⟩ := natSqrt_shifted_bounds h1 h2
  have hguess : Nat.sqrt (c * 4294967296) ≤ c * 65536 := by
    rw [← Nat.sqrt_eq (c * 65536)]
    exact Nat.sqrt_le_sqrt (by nlinarith)
  have herr : ((c * 65536 : Nat) : ℝ) - √(c * 4294967296 : Nat) ≤
      31 / 33 * ((c * 65536 : Nat) + √(c * 4294967296 : Nat)) := by
    have : ((c * 2048 : Nat) : ℝ) ≤ √(c * 4294967296 : Nat) :=
      Real.le_sqrt_of_sq_le (by exact_mod_cast (by nlinarith : (c * 2048) ^ 2 ≤ c * 4294967296))
    push_cast at this ⊢
    linarith
  have hroot : √(c * 4294967296 : Nat) < 2097152 + (1 : ℝ) :=
    Real.real_sqrt_lt_nat_sqrt_succ.trans (by gcongr; exact_mod_cast hhi)
  refine newtonIter_iterate_succ_eq_sqrt (by omega) (shifted_lt_sqrt_mul h1 h2) hguess (by norm_num) (by norm_num) herr
    (k := 14) ?_
  calc (31 / 33 : ℝ) ^ 2 ^ 14 * (2 * √(c * 4294967296 : Nat) + 1)
      ≤ (31 / 33) ^ 256 * (2 * (2097152 + 1) + 1) := by
        gcongr ?_ * ?_
        · exact pow_le_pow_of_le_one (by norm_num) (by norm_num) (by norm_num)
        · linarith
    _ ≤ 1 := by norm_num

end

/-- Settles O15: the run meets no overflow and no zero (`sqrtQ_selfSeeded`), and its 15th iterate is the integer root
(`newtonIter_iterate_shifted`). -/
theorem sqrtOfSmallIntegersIsExactToOneLsb : Obligations.SqrtOfSmallIntegersIsExactToOneLsb := by
  unfold Obligations.SqrtOfSmallIntegersIsExactToOneLsb
  intro c h1 h2
  refine ⟨_, sqrtQ_selfSeeded h1 h2 15, ?_⟩
  rw [(toNat_selfSeeded h1 h2 15).1, newtonIter_iterate_shifted h1 h2]
  exact ⟨Nat.sqrt_le _, Nat.lt_succ_sqrt _⟩

end Sys2Proof.Machine
end

section
/-! Part of the laws: SampleChannel (41_samplechannel R121 to R125) in the terms of the statements. What PUSH and POP
change and keep, read on the bus, then the moves of a suspended POP. -/

namespace Sys2Proof.Machine

open Sys2Proof.Statements

/-! ### PUSH -/

/-- The count wraps to 0 exactly where it overflows. -/
theorem increment_val_eq_zero_iff (w : Word) : (increment w).val = 0 ↔ w.toNat = 4294967295 := by
  rw [increment_val]
  bv_omega

theorem State.pushSample_readByte {s : State} (hm : s.mem.wf = true) {a : Nat}
    (ha : a ∉ [byteAddr (vbufWord s.channel.pcur) 0, byteAddr (vbufWord s.channel.pcur) 1,
      byteAddr (ibufWord s.channel.pcur) 0, byteAddr (ibufWord s.channel.pcur) 1]) :
    s.pushSample.mem.readByte a = s.mem.readByte a := by
  simp only [List.mem_cons, List.not_mem_nil, or_false, not_or, eq_comm (a := a)] at ha
  obtain ⟨hv0, hv1, hi0, hi1⟩ := ha
  rw [State.pushSample_mem, Memory.readByte_writeHalf (Memory.wf_writeHalf hm _ _), if_neg hi0, if_neg hi1,
    Memory.readByte_writeHalf hm, if_neg hv0, if_neg hv1]

/-- PUSH's frame on the bus; of the window, the other entry pairs (`pushSample_windowPair_ne`). -/
theorem State.pushSample_readReg {s : State} (hm : s.mem.wf = true) {r : BusReg}
    (hr : r ∉ [.status, .pcur, .avail, .vbuf s.channel.pcur, .ibuf s.channel.pcur]) :
    s.pushSample.readReg r = s.readReg r := by
  cases r with
  | status | pcur | avail => simp at hr
  | vbuf k =>
    have hpair := State.pushSample_windowPair_ne hm (k := k) (by simpa using hr)
    exact congrArg (fun p => p.1.signExtend 32) hpair
  | ibuf k =>
    have hpair := State.pushSample_windowPair_ne hm (k := k) (by simpa using hr)
    exact congrArg (fun p => p.2.signExtend 32) hpair
  | _ => rfl

/-- Settles O16: the entry pair at `PCUR` by `pushSample_windowPair_same`, the frame by `pushSample_readByte` and
`pushSample_readReg`, the count by `increment`'s laws. -/
theorem pushStoresAtTheProducersCursor : Obligations.PushStoresAtTheProducersCursor := by
  unfold Obligations.PushStoresAtTheProducersCursor
  intro s hm hh
  obtain ⟨hv, hi⟩ := Prod.mk.inj <|
    (State.windowPair_congr s.pushSample.advance_mem s.channel.pcur).trans (State.pushSample_windowPair_same hm)
  refine ⟨_, exec_push hh, hv, hi, fun a ha => ?_, ?_, ?_, fun r hr => ?_, ?_, ?_, ?_, ?_⟩
  · rw [State.advance_mem, State.pushSample_readByte hm ha]
  · rw [State.advance_channel, State.pushSample_channel, increment_val, BitVec.toNat_ofNat]
  · rw [State.advance_channel, State.pushSample_channel]
    exact BitVec.toNat_add _ _
  · exact (s.pushSample.advance_keepsAllBut.regs r (by simp_all)).trans (State.pushSample_readReg hm (by simp_all))
  · rw [State.advance_status, State.pushSample_status, increment_ovf]
  · rw [State.advance_seqPc, State.pushSample_ctrl, State.pushSample_seqPc]
  · simp only [State.advance_popLifted, State.pushSample_popLifted, ne_eq, increment_val_eq_zero_iff]
  · simp

/-! ### POP -/

/-- CONV's flag is that of the statements' exact steps (R124). -/
theorem conv_ovf (p : Params) (code ratio : Int) :
    (conv p code ratio).ovf = (outS (convExact p code ratio).1 || outS (convExact p code ratio).2) :=
  congrArg₂ or (narrowS_ovf _) (narrowS_ovf _)

theorem State.takeSample_keepsAllBut (s : State) :
    KeepsAllBut [.status, .rV, .rI, .avail, .ccur] { s with popLifted := false } s.takeSample where
  regs := fun r hr => by
    cases r with
    | status | rV | rI | avail | ccur => simp at hr
    | _ => rfl
  bytes := fun _ => rfl
  popLifted := rfl
  periodEvents := rfl
  busReads := rfl
  schedule := rfl
  params := rfl

theorem State.blockPop_keepsAllBut (s : State) : KeepsAllBut [.status] { s with popLifted := false } s.blockPop where
  regs := fun r hr => by
    cases r with
    | status => simp at hr
    | _ => rfl
  bytes := fun _ => rfl
  popLifted := rfl
  periodEvents := rfl
  busReads := rfl
  schedule := rfl
  params := rfl

/-- Settles O17: POP takes the sample (`exec_pop_take`); its conversions are the exact steps of `convExact`, wrapped
(`conv_val`) and flagged (`conv_ovf`). -/
theorem popTakesTheSampleAtTheConsumersCursor : Obligations.PopTakesTheSampleAtTheConsumersCursor := by
  unfold Obligations.PopTakesTheSampleAtTheConsumersCursor
  intro s hh ha v i
  refine ⟨_, exec_pop_take hh ha, ?_, ?_, ?_, ?_, ?_, ?_, ?_, ?_⟩
  · rw [State.advance_regs]
    exact conv_val s.params _ 100
  · rw [State.advance_regs]
    exact conv_val s.params _ 1
  · rw [State.advance_channel, State.takeSample_channel]
    bv_omega
  · rw [State.advance_channel, State.takeSample_channel]
    exact BitVec.toNat_add _ _
  · rw [State.advance_status, State.takeSample_status, conv_ovf, conv_ovf, ← Bool.or_assoc, ← Bool.or_assoc,
      ← Bool.or_assoc]
    rfl
  · rw [State.advance_seqPc, State.takeSample_ctrl, State.takeSample_seqPc]
  · rw [State.advance_popLifted, State.takeSample_popLifted]
  · exact (s.takeSample_keepsAllBut.mono (by simp)).trans (s.takeSample.advance_keepsAllBut.mono (by simp))

/-- Settles O18: POP blocks (`exec_pop_block`), which writes `WAITING` and the hold alone. -/
theorem popWithoutASampleBlocks : Obligations.PopWithoutASampleBlocks := by
  unfold Obligations.PopWithoutASampleBlocks
  intro s hh ha
  exact ⟨_, exec_pop_block hh ha, s.blockPop_status, s.blockPop_popLifted, s.blockPop_keepsAllBut⟩

/-! ### A suspended POP -/

theorem State.popMayResume_iff (s : State) : s.popMayResume = true ↔ s.popLifted = true ∧ s.channel.avail ≠ 0 := by
  rw [State.popMayResume, Bool.and_eq_true, decide_eq_true_eq]

theorem State.popMayResume_eq_false_iff (s : State) :
    s.popMayResume = false ↔ s.popLifted = false ∨ s.channel.avail = 0 := by
  rw [← Bool.not_eq_true, State.popMayResume_iff, not_and_or, Bool.not_eq_true, not_not]

theorem step_consumer {s : State} (h : s.nextMove = .consumer) : step s = consumerMove s.popped := by
  rw [step_eq, h]
  rfl

/-- Settles O19: the consumer's move waits (`consumerMove_waits`) or is the POP (`consumerMove_resumes`), as
`popMayResume` says; with a sample there the POP takes it. -/
theorem suspendedPopProceedsOnlyAfterAPush : Obligations.SuspendedPopProceedsOnlyAfterAPush := by
  unfold Obligations.SuspendedPopProceedsOnlyAfterAPush
  intro s hmove hh hw
  rw [step_consumer hmove]
  refine ⟨fun hhold => consumerMove_waits hh hw ((State.popMayResume_eq_false_iff _).mpr hhold), fun hl ha => ?_⟩
  have hpop := consumerMove_resumes (s := s.popped) hh hw ((State.popMayResume_iff _).mpr ⟨hl, ha⟩)
  refine ⟨hpop, _, hpop.trans (exec_pop_take hh ha), ?_⟩
  rw [State.advance_status, State.takeSample_status]

theorem State.assertWaitFail_halts {s : State} (hh : s.status.halted = false) (hw : s.status.waiting = true) :
    Halts .pop .waitFail [] false s s.assertWaitFail := by
  have hs : s.popSuspended = true := by simp [State.popSuspended, hh, hw]
  have hhalts := s.takeFatal_halts .pop .waitFail false
  rw [State.noteOvf_false] at hhalts
  rwa [State.assertWaitFail, if_pos hs]

theorem State.assertWaitFail_notSuspended {s : State} (h : s.status.halted = true ∨ s.status.waiting = false) :
    s.assertWaitFail = s := by
  have hs : s.popSuspended = false := by obtain h | h := h <;> simp [State.popSuspended, h]
  simp [State.assertWaitFail, hs]

theorem step_waitFail {s : State} {rest : List Event} (h : s.schedule = .waitFail :: rest) :
    step s = .next { s with schedule := rest }.assertWaitFail :=
  step_of_schedule h

/-- Settles O21: `wait_fail` is the halt of R213 where a POP is suspended (`assertWaitFail_halts`), nothing elsewhere
(`assertWaitFail_notSuspended`). -/
theorem waitFailHaltsASuspendedPopOnly : Obligations.WaitFailHaltsASuspendedPopOnly := by
  unfold Obligations.WaitFailHaltsASuspendedPopOnly
  intro s rest hs
  rw [step_waitFail hs]
  refine ⟨fun hh hw => ?_, fun h => congrArg _ (State.assertWaitFail_notSuspended (s := { s with schedule := rest }) h)⟩
  have hhalts := State.assertWaitFail_halts (s := { s with schedule := rest }) hh hw
  refine ⟨_, rfl, ?_, hhalts⟩
  rw [hhalts.status]
  exact hw

end Sys2Proof.Machine
end

section
/-! Part of the laws: FrequencyTracker (42_frequencytracker R130 to R140) in the terms of the statements. Each way FTSTEP's
pseudocode ends is one write of the tracker's registers with its flag (`State.retrack`); the period and the crossing
fraction on exact integers; then `FT_CTL.STATE` over a step. -/

namespace Sys2Proof.Machine

open Sys2Proof.Statements

/-! ### The crossing test and the fraction (R134, R135) -/

theorem risingCrossing_iff (prev cur : Word) : risingCrossing prev cur = true ↔ Crosses prev cur := by
  simp [risingCrossing, Crosses]

theorem risingCrossing_eq_false_iff (prev cur : Word) : risingCrossing prev cur = false ↔ ¬ Crosses prev cur := by
  rw [← Bool.not_eq_true, risingCrossing_iff]

/-- At a crossing the divisor exceeds the dividend's thousandth. -/
theorem fraction_bounds {prev cur : Word} (h : Crosses prev cur) :
    0 ≤ (cur.toInt * 1000).tdiv (cur.toInt - prev.toInt) ∧
      (cur.toInt * 1000).tdiv (cur.toInt - prev.toInt) ≤ 999 := by
  obtain ⟨hprev, hcur⟩ := h
  rw [Int.tdiv_eq_ediv_of_nonneg (by omega)]
  refine ⟨Int.ediv_nonneg (by omega) (by omega), Int.lt_add_one_iff.mp ?_⟩
  exact Int.ediv_lt_of_lt_mul (by omega) (by omega)

/-- Settles O28: the model's fraction is the statement's, and at a crossing it is in range (`fraction_bounds`), so the
wrap keeps it. -/
theorem crossingFractionIsBelowOneThousand : Obligations.CrossingFractionIsBelowOneThousand := by
  unfold Obligations.CrossingFractionIsBelowOneThousand
  intro prev cur
  refine ⟨rfl, fun h => ?_⟩
  obtain ⟨hlo, hhi⟩ := fraction_bounds h
  rw [crossingFraction, fracScale, toInt_wrap32 (by omega) (by omega)]
  exact ⟨hlo, hhi⟩

/-! ### A write of the tracker's registers -/

/-- The registers of R38 and the boundary flag, on the bus. -/
def trackerRegs : List BusReg :=
  [.ftCtl, .ftPrev, .ftCount, .ftEntry, .ftExit, .ftPeriod, .periodDone, .boundary]

/-- The tracker's registers rewritten, with the flag of the arithmetic. -/
def State.retrack (s : State) (o : Bool) (tr : TrackerRegs) : State := { s.noteOvf o with tracker := tr }

@[simp] theorem State.retrack_tracker (s : State) (o : Bool) (tr : TrackerRegs) : (s.retrack o tr).tracker = tr := rfl

theorem State.retrack_keepsAllBut {rs : List BusReg} {s : State} {o : Bool} {tr : TrackerRegs}
    (h : ∀ r ∈ trackerRegs, r ∉ rs → (s.retrack o tr).readReg r = s.readReg r) :
    KeepsAllBut (.status :: rs) s (s.retrack o tr) :=
  { KeepsAllBut.refl (.status :: rs) s with
    regs := fun r hr => by
      rw [List.mem_cons, not_or] at hr
      by_cases htr : r ∈ trackerRegs
      · exact h r htr hr.2
      · cases r with
        | status => exact absurd rfl hr.1
        | ftCtl | ftPrev | ftCount | ftEntry | ftExit | ftPeriod | periodDone | boundary => simp [trackerRegs] at htr
        | _ => rfl }

/-- An FTSTEP whose pseudocode ends in a write of the tracker's registers. -/
theorem exec_ftstep_completes {rs : List BusReg} {s : State} {o : Bool} {tr : TrackerRegs}
    (hh : s.status.halted = false) (hbody : ftstepBody s = .done (s.retrack o tr))
    (hframe : ∀ r ∈ trackerRegs, r ∉ rs → (s.retrack o tr).readReg r = s.readReg r) :
    ∃ t, exec .ftstep s = .next t ∧ t.tracker = tr ∧ Completes rs o s t := by
  refine ⟨(s.retrack o tr).advance, ?_, ?_, .of_body (State.retrack_keepsAllBut hframe) rfl rfl rfl⟩
  · rw [exec_ftstep hh, hbody, Effect.finish_done]
  · rw [State.advance_tracker, State.retrack_tracker]

/-! ### How FTSTEP's pseudocode ends (R131 to R136) -/

theorem State.noteOvf_noteOvf (s : State) (o o' : Bool) : (s.noteOvf o).noteOvf o' = s.noteOvf (o || o') := by
  simp [State.noteOvf, Bool.or_assoc]

theorem ftstepBody_unsynced {s : State} (hst : s.tracker.state = .unsynced) :
    ftstepBody s = .done (s.retrack false { s.tracker with
      boundary := false, periodDone := s.tracker.period, prev := s.regs.rV, state := .tracking }) := by
  simp [ftstepBody, hst, State.retrack, State.noteOvf_false, State.beginStep, State.rememberSample]

theorem ftstepBody_tracking {s : State} (hst : s.tracker.state = .tracking) (hx : ¬ Crosses s.tracker.prev s.regs.rV) :
    ftstepBody s = .done (s.retrack false { s.tracker with
      boundary := false, periodDone := s.tracker.period, prev := s.regs.rV }) := by
  simp [ftstepBody, hst, (risingCrossing_eq_false_iff _ _).mpr hx, State.retrack, State.noteOvf_false, State.beginStep,
    State.rememberSample]

theorem ftstepBody_locks {s : State} (hst : s.tracker.state = .tracking) (hx : Crosses s.tracker.prev s.regs.rV) :
    ftstepBody s = .done (s.retrack false { s.tracker with
      boundary := false, periodDone := s.tracker.period, prev := s.regs.rV,
      entry := fraction s.regs.rV s.tracker.prev, count := 0, toggle := false, state := .locked }) := by
  simp [ftstepBody, hst, (risingCrossing_iff _ _).mpr hx, State.retrack, State.noteOvf_false, State.beginStep,
    State.rememberSample, State.lockOn]
  rfl

theorem lockedStep_counts {s : State} {x : Word} (hx : ¬ Crosses s.tracker.prev x) :
    lockedStep s x = .done (s.countSample.rememberSample x) := by
  rw [lockedStep_eq, if_neg (mt (risingCrossing_iff _ _).mp hx)]

theorem lockedStep_enters {s : State} {x : Word} (hx : Crosses s.tracker.prev x) (htog : s.tracker.toggle = false) :
    lockedStep s x = .done ((s.countSample.enterCycle (fraction x s.tracker.prev)).rememberSample x) := by
  rw [lockedStep_eq, if_pos ((risingCrossing_iff _ _).mpr hx), if_neg (by simp [htog])]
  rfl

theorem lockedStep_exits {s : State} {x : Word} (hx : Crosses s.tracker.prev x) (htog : s.tracker.toggle = true) :
    lockedStep s x = exitCrossing s.countSample x (fraction x s.tracker.prev) := by
  rw [lockedStep_eq, if_pos ((risingCrossing_iff _ _).mpr hx), if_pos htog]
  rfl

theorem ftstepBody_locked {s : State} (hst : s.tracker.state = .locked) :
    ftstepBody s = lockedStep s.beginStep s.regs.rV := by
  simp [ftstepBody, hst]

theorem ftstepBody_counts {s : State} (hst : s.tracker.state = .locked) (hx : ¬ Crosses s.tracker.prev s.regs.rV) :
    ftstepBody s = .done (s.retrack (increment s.tracker.count).ovf { s.tracker with
      boundary := false, periodDone := s.tracker.period, prev := s.regs.rV,
      count := (increment s.tracker.count).val }) :=
  (ftstepBody_locked hst).trans (lockedStep_counts (s := s.beginStep) hx)

theorem ftstepBody_enters {s : State} (hst : s.tracker.state = .locked) (htog : s.tracker.toggle = false)
    (hx : Crosses s.tracker.prev s.regs.rV) :
    ftstepBody s = .done (s.retrack (increment s.tracker.count).ovf { s.tracker with
      boundary := false, periodDone := s.tracker.period, prev := s.regs.rV,
      entry := fraction s.regs.rV s.tracker.prev, count := 0, toggle := true }) :=
  (ftstepBody_locked hst).trans (lockedStep_enters (s := s.beginStep) hx htog)

theorem ftstepBody_exits {s : State} (hst : s.tracker.state = .locked) (htog : s.tracker.toggle = true)
    (hx : Crosses s.tracker.prev s.regs.rV) :
    ftstepBody s = exitCrossing s.beginStep.countSample s.regs.rV (fraction s.regs.rV s.tracker.prev) :=
  (ftstepBody_locked hst).trans (lockedStep_exits (s := s.beginStep) hx htog)

/-! ### The cases without an exit -/

/-- Settles O24: one end per state (`ftstepBody_unsynced`, `ftstepBody_tracking`, `ftstepBody_counts`); LOCKED alone
counts, and the count overflows at its last value (`increment_ovf`). -/
theorem ftstepWithoutACrossing : Obligations.FtstepWithoutACrossing := by
  unfold Obligations.FtstepWithoutACrossing
  intro s hh hquiet n
  cases hst : s.tracker.state with
  | unsynced => exact exec_ftstep_completes hh (ftstepBody_unsynced hst) (by simp [trackerRegs, State.readReg])
  | tracking =>
    have hx : ¬ Crosses s.tracker.prev s.regs.rV := hquiet.resolve_left (by simp [hst])
    have h := exec_ftstep_completes hh (ftstepBody_tracking hst hx)
      (rs := [.boundary, .periodDone, .ftPrev, .ftCtl, .ftCount]) (by simp [trackerRegs, State.readReg])
    simpa [hst] using h
  | locked =>
    have hx : ¬ Crosses s.tracker.prev s.regs.rV := hquiet.resolve_left (by simp [hst])
    have hcount : (increment s.tracker.count).val = pat n := rfl
    have h := exec_ftstep_completes hh (ftstepBody_counts hst hx)
      (rs := [.boundary, .periodDone, .ftPrev, .ftCtl, .ftCount]) (by simp [trackerRegs, State.readReg])
    simpa [hst, increment_ovf, hcount] using h

/-- Settles O25: the end is `ftstepBody_locks`. -/
theorem firstCrossingLocks : Obligations.FirstCrossingLocks := by
  unfold Obligations.FirstCrossingLocks
  intro s hh hst hx
  exact exec_ftstep_completes hh (ftstepBody_locks hst hx) (by simp [trackerRegs, State.readReg])

/-- Settles O26: the end is `ftstepBody_enters`, its flag the count's. -/
theorem entryCrossingStartsTheMeasuredCycle : Obligations.EntryCrossingStartsTheMeasuredCycle := by
  unfold Obligations.EntryCrossingStartsTheMeasuredCycle
  intro s hh hst htog hx
  rw [← increment_ovf]
  exact exec_ftstep_completes hh (ftstepBody_enters hst htog hx) (by simp [trackerRegs, State.readReg])

/-! ### The period on exact integers (R137, R138) -/

theorem fractionsInRange_iff (e x : Word) : fractionsInRange e x = true ↔ InRange e x := by
  simp [fractionsInRange, InRange, and_assoc]

theorem basePeriod_eq (old n : Word) :
    basePeriod old n = ⟨pat (exactPeriod old n), decide (4294967296 ≤ exactPeriod old n)⟩ := by
  have hexact : (old.toNat >>> fllDivShift) * n.toNat = exactPeriod old n := by
    rw [Nat.shiftRight_eq_div_pow]; rfl
  rw [basePeriod, hexact]
  exact Flagged.eq_of rfl (narrowU_natCast_ovf _)

/-- In range both fractions are their own numbers, so the correction is a quotient of naturals. -/
theorem periodCorrection_eq (old : Word) {e x : Word} (h : InRange e x) :
    periodCorrection old e x = ((e.toNat + x.toNat) * (old.toNat / 65536) / 1000 : Nat) := by
  obtain ⟨he, -, hx, -⟩ := h
  have nat {w : Word} (hw : 0 ≤ w.toInt) : w.toInt = w.toNat := by
    rw [BitVec.toInt_eq_toNat_cond] at hw ⊢; split <;> omega
  rw [periodCorrection, Nat.shiftRight_eq_div_pow, nat he, nat hx, ← Int.natCast_add, ← Int.natCast_mul]
  exact (Int.ofNat_tdiv _ 1000).symm

theorem newPeriod_inRange {old n e x : Word} (h : InRange e x) : newPeriod old n e x =
    ⟨pat (correctedPeriod old n e x),
      decide (4294967296 ≤ exactPeriod old n) || decide (4294967296 ≤ correctedPeriod old n e x)⟩ := by
  have hsum : ((pat (exactPeriod old n)).toNat : Int) + periodCorrection old e x = correctedPeriod old n e x := by
    rw [periodCorrection_eq old h, toNat_pat, ← Nat.cast_add]; rfl
  rw [newPeriod, if_pos ((fractionsInRange_iff e x).mpr h), basePeriod_eq]
  dsimp only
  rw [hsum, narrowU_natCast_ovf]
  rfl

theorem newPeriod_outOfRange {old n e x : Word} (h : ¬ InRange e x) : newPeriod old n e x =
    ⟨pat (exactPeriod old n), decide (4294967296 ≤ exactPeriod old n)⟩ := by
  rw [newPeriod, if_neg (mt (fractionsInRange_iff e x).mp h), basePeriod_eq]

theorem freqDivisor_eq_zero_iff (new : Word) : freqDivisor new = 0 ↔ new.toNat < 10 := by
  unfold freqDivisor; omega

/-- The frequency of R138 fits its register. -/
theorem toNat_frequency (new : Word) :
    (wrap32 ((nsPerSecond / freqDivisor new : Nat) : Int)).toNat = 1000000000 / (16 * (new.toNat / 10)) := by
  rw [toNat_wrap32_natCast]
  exact Nat.mod_eq_of_lt (lt_of_le_of_lt (Nat.div_le_self _ _) (by decide))

/-! ### The exit crossing (R136, R138, R140) -/

theorem exitCrossing_halts {s : State} {f : Word} {p : Flagged} (x : Word)
    (hp : newPeriod s.tracker.period s.tracker.count s.tracker.entry f = p) (hlt : p.val.toNat < 10) :
    exitCrossing s x f = .fatal .divZero (s.retrack p.ovf { s.tracker with exit := f }) := by
  subst hp
  exact if_pos ((freqDivisor_eq_zero_iff _).mpr hlt)

theorem exitCrossing_reports {s : State} {f : Word} {p : Flagged} (x : Word)
    (hp : newPeriod s.tracker.period s.tracker.count s.tracker.entry f = p) (hge : 10 ≤ p.val.toNat) :
    exitCrossing s x f =
      .done (((s.retrack p.ovf { s.tracker with exit := f }).reportBoundary p.val).rememberSample x) := by
  subst hp
  exact if_neg (mt (freqDivisor_eq_zero_iff _).mp (Nat.not_lt.mpr hge))

theorem State.noteOvf_retrack (s : State) (o o' : Bool) (tr : TrackerRegs) :
    (s.noteOvf o).retrack o' tr = s.retrack (o || o') tr := by
  rw [State.retrack, State.noteOvf_noteOvf]; rfl

/-- What a boundary writes beside the tracker's registers: the frequency and the `set_period` event (R138, R226). -/
def State.withReport (s : State) (new : Word) : State :=
  { s with
    totals.freq := wrap32 ((nsPerSecond / freqDivisor new : Nat) : Int)
    periodEvents := s.periodEvents ++ [⟨new, s.params.ftRestart⟩] }

theorem State.reportBoundary_rememberSample (s : State) (o : Bool) (tr : TrackerRegs) (new x : Word) :
    ((s.retrack o tr).reportBoundary new).rememberSample x = (s.retrack o { tr with
      prev := x, period := new, count := 0, toggle := false, boundary := true }).withReport new := rfl

/-- The halt of R140: the count and the crossing's fraction are written, the frequency, the period and `FT_PREV` not. -/
theorem ftstepBody_halts {s : State} (hst : s.tracker.state = .locked) (htog : s.tracker.toggle = true)
    (hx : Crosses s.tracker.prev s.regs.rV) {p : Flagged}
    (hp : newPeriod s.tracker.period (increment s.tracker.count).val s.tracker.entry
      (fraction s.regs.rV s.tracker.prev) = p) (hlt : p.val.toNat < 10) :
    ftstepBody s = .fatal .divZero (s.retrack ((increment s.tracker.count).ovf || p.ovf) { s.tracker with
      boundary := false, periodDone := s.tracker.period, count := (increment s.tracker.count).val,
      exit := fraction s.regs.rV s.tracker.prev }) := by
  rw [ftstepBody_exits hst htog hx, exitCrossing_halts (s := s.beginStep.countSample) _ hp hlt, ← State.noteOvf_retrack]
  rfl

/-- The boundary of R138: frequency, event, period, cleared count and flag. -/
theorem ftstepBody_reports {s : State} (hst : s.tracker.state = .locked) (htog : s.tracker.toggle = true)
    (hx : Crosses s.tracker.prev s.regs.rV) {p : Flagged}
    (hp : newPeriod s.tracker.period (increment s.tracker.count).val s.tracker.entry
      (fraction s.regs.rV s.tracker.prev) = p) (hge : 10 ≤ p.val.toNat) :
    ftstepBody s = .done (State.withReport (s.retrack ((increment s.tracker.count).ovf || p.ovf) { s.tracker with
      boundary := true, periodDone := s.tracker.period, prev := s.regs.rV,
      exit := fraction s.regs.rV s.tracker.prev, period := p.val, count := 0, toggle := false }) p.val) := by
  rw [ftstepBody_exits hst htog hx, exitCrossing_reports (s := s.beginStep.countSample) _ hp hge,
    State.reportBoundary_rememberSample, ← State.noteOvf_retrack]
  rfl

/-- The frame of a boundary, beside its event. -/
theorem State.retrack_withReport_keepsAllBut {rs : List BusReg} {s : State} {o : Bool} {tr : TrackerRegs} (new : Word)
    (h : KeepsAllBut rs s (s.retrack o tr)) (hfreq : BusReg.totFreq ∈ rs) :
    KeepsAllBut rs { s with periodEvents := s.periodEvents ++ [⟨new, s.params.ftRestart⟩] }
      ((s.retrack o tr).withReport new) := by
  have hput := State.putReg_keepsAllBut (r := .totFreq) rfl (s.retrack o tr)
    (wrap32 ((nsPerSecond / freqDivisor new : Nat) : Int))
  have hall := h.trans (hput.mono (List.cons_subset.mpr ⟨hfreq, List.nil_subset _⟩))
  exact
    { hall with
      regs := fun r hr => by
        have := hall.regs r hr
        cases r <;> exact this
      periodEvents := rfl }

/-- Settles O27: `newPeriod` is the statement's period (`newPeriod_inRange`, `newPeriod_outOfRange`); from 10 on the end
is `ftstepBody_reports`, below it `ftstepBody_halts`. -/
theorem exitCrossingReportsABoundaryOrHalts : Obligations.ExitCrossingReportsABoundaryOrHalts := by
  unfold Obligations.ExitCrossingReportsABoundaryOrHalts
  intro s new o hh hst htog hx n f countOvf hin hout
  have hcount : (increment s.tracker.count).val = n := rfl
  have hcovf : (increment s.tracker.count).ovf = countOvf := increment_ovf _
  obtain ⟨op, hp, rfl⟩ : ∃ op, newPeriod s.tracker.period n s.tracker.entry f = ⟨new, op⟩ ∧ o = (countOvf || op) := by
    by_cases hr : InRange s.tracker.entry f
    · obtain ⟨rfl, rfl⟩ := hin hr
      exact ⟨_, newPeriod_inRange hr, Bool.or_assoc _ _ _⟩
    · obtain ⟨rfl, rfl⟩ := hout hr
      exact ⟨_, newPeriod_outOfRange hr, rfl⟩
  rw [← hcovf]
  refine ⟨fun hge => ?_, fun hlt => ?_⟩
  · have hbody := ftstepBody_reports hst htog hx hp hge
    refine ⟨_, by rw [exec_ftstep hh, hbody, Effect.finish_done], ?_, ?_, ?_, ?_⟩
    · rw [State.advance_tracker]; rfl
    · rw [State.advance_totals]; exact toNat_frequency new
    · rw [State.advance_periodEvents]; rfl
    · rw [State.advance_periodEvents]
      refine .of_body (State.retrack_withReport_keepsAllBut new (State.retrack_keepsAllBut ?_) (by simp)) rfl rfl rfl
      simp [trackerRegs, State.readReg]
  · have hbody := ftstepBody_halts hst htog hx hp hlt
    refine ⟨_, by rw [exec_ftstep hh, hbody, Effect.finish_fatal], ?_, .of_body (State.retrack_keepsAllBut ?_) rfl rfl rfl⟩
    · rw [State.takeFatal_tracker, State.retrack_tracker, hcount]
    · simp [trackerRegs, State.readReg, ftCtlWord]

/-! ### No two consecutive crossings (R134) -/

/-- `FT_PREV` is the sample just processed, in every state of the tracker (R131). -/
theorem ftstepBody_done_prev {s u : State} (h : ftstepBody s = .done u) : u.tracker.prev = s.regs.rV := by
  cases hst : s.tracker.state with
  | unsynced => rw [ftstepBody_unsynced hst] at h; cases h; rfl
  | tracking =>
    by_cases hx : Crosses s.tracker.prev s.regs.rV
    · rw [ftstepBody_locks hst hx] at h; cases h; rfl
    · rw [ftstepBody_tracking hst hx] at h; cases h; rfl
  | locked =>
    by_cases hx : Crosses s.tracker.prev s.regs.rV
    · cases htog : s.tracker.toggle with
      | false => rw [ftstepBody_enters hst htog hx] at h; cases h; rfl
      | true =>
        obtain hlt | hge := Nat.lt_or_ge (newPeriod s.tracker.period (increment s.tracker.count).val s.tracker.entry
          (fraction s.regs.rV s.tracker.prev)).val.toNat 10
        · rw [ftstepBody_halts hst htog hx rfl hlt] at h; cases h
        · rw [ftstepBody_reports hst htog hx rfl hge] at h; cases h; rfl
    · rw [ftstepBody_counts hst hx] at h; cases h; rfl

/-- Settles O29: an FTSTEP that completes leaves its sample in `FT_PREV` (`ftstepBody_done_prev`), and at a crossing that
sample is not negative. -/
theorem noTwoConsecutiveCrossings : Obligations.NoTwoConsecutiveCrossings := by
  unfold Obligations.NoTwoConsecutiveCrossings
  refine ⟨risingCrossing_iff, fun s t x hh hx h ht hx' => ?_⟩
  rw [exec_ftstep hh] at h
  cases h
  cases hbody : ftstepBody s with
  | done u =>
    have hprev : u.tracker.prev = s.regs.rV := ftstepBody_done_prev hbody
    rw [hbody, Effect.finish_done, State.advance_tracker, hprev] at hx'
    exact absurd hx.2 (Int.not_le.mpr hx'.1)
  | blocked u => exact ftstepBody_ne_blocked s u hbody
  | fatal c u =>
    rw [hbody] at ht
    cases ht

/-! ### `FT_CTL.STATE` over a step (R130) -/

/-- `STATE` stays, or advances by one. -/
def StateAdvances (s t : State) : Prop :=
  t.tracker.state = s.tracker.state ∨ (s.tracker.state = .unsynced ∧ t.tracker.state = .tracking) ∨
    (s.tracker.state = .tracking ∧ t.tracker.state = .locked)

theorem StateAdvances.of_tracker_eq {s t : State} (h : t.tracker = s.tracker) : StateAdvances s t :=
  .inl (congrArg TrackerRegs.state h)

theorem Ends.stateAdvances {i : Instr} {s t : State} (h : Ends i s t) : StateAdvances s t := by
  cases h with
  | completes u hb _ => unfold StateAdvances; rw [State.advance_tracker]; exact hb.tracker
  | blocks _ => exact .of_tracker_eq rfl
  | halts u c hb _ => exact hb.tracker

theorem exec_stateAdvances {i : Instr} {s t : State} (h : exec i s = .next t) : StateAdvances s t := by
  obtain ⟨-, rfl⟩ | ⟨-, -, _, rfl, -⟩ | ⟨-, -, -, rfl⟩ | ⟨-, -, hends⟩ := exec_cases h
  · exact .of_tracker_eq rfl
  · exact .of_tracker_eq rfl
  · exact .of_tracker_eq rfl
  · exact hends.stateAdvances

/-- Of the host's writes, one of `FT_CTL` alone reaches `STATE` (R38). -/
theorem State.putReg_trackState {r : BusReg} (hr : r ≠ .ftCtl) (s : State) (v : Word) :
    (s.putReg v r).tracker.state = s.tracker.state := by
  cases r with
  | ftCtl => exact absurd rfl hr
  | _ => rfl

theorem busDecode_eq_ftCtl_iff (a : BusAddr) : busDecode a = some .ftCtl ↔ a = 0x18 := by
  revert a; decide

theorem busWriteMove_stateAdvances {a : BusAddr} {v : Word} {s t : State} (h : busWriteMove a v s = .next t)
    (ha : a ≠ 0x18) : StateAdvances s t := by
  obtain rfl | ⟨-, hcmd⟩ | ⟨r, hd, -, -, rfl⟩ := busWriteMove_cases h
  · exact .of_tracker_eq rfl
  · obtain rfl | rfl | ⟨i, hexec⟩ := commandMove_exec hcmd
    · exact .of_tracker_eq rfl
    · exact .of_tracker_eq rfl
    · exact exec_stateAdvances hexec
  · have hne : r ≠ .ftCtl := fun hr => ha ((busDecode_eq_ftCtl_iff a).mp (hr ▸ hd))
    exact .inl (State.putReg_trackState hne s v)

theorem State.tickMove_tracker (s : State) (v i : Half) : (s.tickMove v i).tracker = s.tracker := by
  unfold State.tickMove; split <;> rfl

theorem State.assertWaitFail_tracker (s : State) : s.assertWaitFail.tracker = s.tracker := by
  unfold State.assertWaitFail; split <;> rfl

theorem applyEvent_stateAdvances {e : Event} {s t : State} (h : applyEvent e s = .next t) (hreset : ∀ u, e ≠ .reset u)
    (hwrite : ∀ v, e ≠ .busWrite 0x18 v) : StateAdvances s t := by
  cases e with
  | consumer =>
    obtain rfl | ⟨i, hexec⟩ := consumerMove_exec h
    · exact .of_tracker_eq rfl
    · exact exec_stateAdvances hexec
  | tick v i => cases h; exact .of_tracker_eq (State.tickMove_tracker s v i)
  | busWrite a v => exact busWriteMove_stateAdvances h fun ha => hwrite v (by rw [ha])
  | busRead a => cases h; exact .of_tracker_eq rfl
  | waitFail => cases h; exact .of_tracker_eq (State.assertWaitFail_tracker s)
  | reset u => exact absurd rfl (hreset u)

/-- Settles O30: every agent's move but reset and a write of `FT_CTL` keeps `STATE` or advances it by one
(`applyEvent_stateAdvances`); of the operations, FTSTEP alone advances it (`BodyFrame.tracker`). -/
theorem trackerStateOnlyAdvances : Obligations.TrackerStateOnlyAdvances := by
  unfold Obligations.TrackerStateOnlyAdvances
  intro s t h hreset hwrite
  rw [step_eq] at h
  have hadvances : StateAdvances s.popped t := applyEvent_stateAdvances h hreset hwrite
  exact hadvances

end Sys2Proof.Machine
end

section
/-! Part of the laws: CycleAggregator (43_cycleaggregator R151 to R156) in the terms of the statements. Each way ACC, FINP
and FINRMS end is one write of the aggregator's registers and the totals with its flag (`State.reaggregate`). -/

namespace Sys2Proof.Machine

open Sys2Proof.Statements

/-! ### Exact results, narrowed -/

theorem narrowS_eq (z : Int) : narrowS z = ⟨pat z, outS z⟩ := Flagged.eq_of rfl (narrowS_ovf z)

theorem narrowU_eq (z : Int) : narrowU z = ⟨pat z, outU z⟩ := Flagged.eq_of rfl (narrowU_ovf z)

theorem mulQ_eq (a b : Word) : mulQ a b = ⟨pat (mulExact a b), outS (mulExact a b)⟩ :=
  Flagged.eq_of (mulQ_val a b) (mulQ_ovf a b)

theorem divQ_eq (a b : Word) : divQ a b = ⟨pat (divExact a b), outS (divExact a b)⟩ := narrowS_eq _

theorem addS_eq (a b : Word) : addS a b = ⟨pat (a.toInt + b.toInt), outS (a.toInt + b.toInt)⟩ := narrowS_eq _

theorem addU_eq (a b : Word) : addU a b = ⟨pat (a.toNat + b.toNat : Nat), outU (a.toNat + b.toNat : Nat)⟩ := narrowU_eq _

theorem increment_eq (w : Word) : increment w = ⟨pat (w.toNat + 1), outU (w.toNat + 1)⟩ := narrowU_eq _

/-! ### A write of the aggregator's registers and the totals -/

/-- The registers of R39 and R42, on the bus. -/
def aggregateRegs : List BusReg :=
  [.sumV2, .sumI2, .sumP, .count, .seedV, .seedI, .aggCtl, .nDone,
    .totPower, .totEnergy, .totCost, .totFreq, .totVrms, .totIrms, .totPf]

/-- The aggregator's registers and the totals rewritten, with the flag of the arithmetic. -/
def State.reaggregate (s : State) (o : Bool) (agg : AggRegs) (tot : TotalRegs) : State :=
  { s.noteOvf o with agg := agg, totals := tot }

@[simp] theorem State.reaggregate_agg (s : State) (o : Bool) (agg : AggRegs) (tot : TotalRegs) :
    (s.reaggregate o agg tot).agg = agg := rfl
@[simp] theorem State.reaggregate_totals (s : State) (o : Bool) (agg : AggRegs) (tot : TotalRegs) :
    (s.reaggregate o agg tot).totals = tot := rfl

theorem State.noteOvf_reaggregate (s : State) (o o' : Bool) (agg : AggRegs) (tot : TotalRegs) :
    (s.noteOvf o).reaggregate o' agg tot = s.reaggregate (o || o') agg tot := by
  rw [State.reaggregate, State.noteOvf_noteOvf]; rfl

theorem State.reaggregate_reaggregate (s : State) (o o' : Bool) (agg agg' : AggRegs) (tot tot' : TotalRegs) :
    (s.reaggregate o agg tot).reaggregate o' agg' tot' = s.reaggregate (o || o') agg' tot' :=
  s.noteOvf_reaggregate o o' agg' tot'

theorem State.noteOvf_eq_reaggregate (s : State) (o : Bool) : s.noteOvf o = s.reaggregate o s.agg s.totals := rfl

theorem State.reaggregate_keepsAllBut {rs : List BusReg} {s : State} {o : Bool} {agg : AggRegs} {tot : TotalRegs}
    (h : ∀ r ∈ aggregateRegs, r ∉ rs → (s.reaggregate o agg tot).readReg r = s.readReg r) :
    KeepsAllBut (.status :: rs) s (s.reaggregate o agg tot) :=
  { KeepsAllBut.refl (.status :: rs) s with
    regs := fun r hr => by
      rw [List.mem_cons, not_or] at hr
      by_cases hagg : r ∈ aggregateRegs
      · exact h r hagg hr.2
      · cases r with
        | status => exact absurd rfl hr.1
        | sumV2 | sumI2 | sumP | count | seedV | seedI | aggCtl | nDone | totPower | totEnergy | totCost | totFreq
        | totVrms | totIrms | totPf => simp [aggregateRegs] at hagg
        | _ => rfl }

/-- An operation whose pseudocode ends in a write of the aggregator's registers and the totals. -/
theorem exists_completes_of_reaggregate {i : Instr} {rs : List BusReg} {s : State} {o : Bool} {agg : AggRegs}
    {tot : TotalRegs} (hexec : exec i s = .next (s.reaggregate o agg tot).advance)
    (hframe : ∀ r ∈ aggregateRegs, r ∉ rs → (s.reaggregate o agg tot).readReg r = s.readReg r) :
    ∃ t, exec i s = .next t ∧ t.agg = agg ∧ t.totals = tot ∧ Completes rs o s t := by
  refine ⟨_, hexec, ?_, ?_, .of_body (State.reaggregate_keepsAllBut hframe) rfl rfl rfl⟩
  · rw [State.advance_agg, State.reaggregate_agg]
  · rw [State.advance_totals, State.reaggregate_totals]

/-- An operation whose pseudocode raises `Fatal` after a write of the aggregator's registers and the totals. -/
theorem exists_halts_of_reaggregate {i : Instr} {c : Cause} {rs : List BusReg} {s : State} {o : Bool} {agg : AggRegs}
    {tot : TotalRegs} (hexec : exec i s = .next ((s.reaggregate o agg tot).takeFatal i.opcode c))
    (hframe : ∀ r ∈ aggregateRegs, r ∉ rs → (s.reaggregate o agg tot).readReg r = s.readReg r) :
    ∃ t, exec i s = .next t ∧ t.agg = agg ∧ t.totals = tot ∧ Halts i c rs o s t :=
  ⟨_, hexec, rfl, rfl, .of_body (State.reaggregate_keepsAllBut hframe) rfl rfl rfl⟩

/-! ### ACC (R151) -/

theorem State.accumulateSample_eq_reaggregate (s : State) :
    let v2 := addSquare s.agg.sumV2 (divQ s.regs.rV ten)
    let i2 := addSquare s.agg.sumI2 (mulQ s.regs.rI ten)
    let p := accumulate addS s.agg.sumP (mulQ s.regs.rV s.regs.rI)
    let n := increment s.agg.count
    s.accumulateSample = s.reaggregate (v2.ovf || i2.ovf || p.ovf || n.ovf)
      { s.agg with sumV2 := v2.val, sumI2 := i2.val, sumP := p.val, count := n.val } s.totals := rfl

/-- A sum of squares on exact integers: the scaled sample, its square and the sum each narrowed. -/
theorem addSquare_eq (sum : Word) (z : Int) :
    let sq := mulExact (pat z) (pat z)
    let total := sum.toNat + (pat sq).toNat
    addSquare sum ⟨pat z, outS z⟩ = ⟨pat total, outS z || outS sq || outU total⟩ := by
  simp only [addSquare, accumulate, mulQ_eq, addU_eq, Bool.or_assoc]

/-- Settles O31: the three sums are `addSquare_eq` and `accumulate` of exact products (`mulQ_eq`, `divQ_eq`). -/
theorem accAddsOneSampleToTheSums : Obligations.AccAddsOneSampleToTheSums := by
  unfold Obligations.AccAddsOneSampleToTheSums
  intro s hh vs v2 is i2 p sv si sp
  have hv : addSquare s.agg.sumV2 (divQ s.regs.rV ten) = ⟨pat sv, outS vs || outS v2 || outU sv⟩ := by
    rw [divQ_eq]; exact addSquare_eq _ _
  have hi : addSquare s.agg.sumI2 (mulQ s.regs.rI ten) = ⟨pat si, outS is || outS i2 || outU si⟩ := by
    rw [mulQ_eq]; exact addSquare_eq _ _
  have hp : accumulate addS s.agg.sumP (mulQ s.regs.rV s.regs.rI) = ⟨pat sp, outS p || outS sp⟩ := by
    rw [accumulate, mulQ_eq, addS_eq]
  have hexec := exec_acc hh
  rw [State.accumulateSample_eq_reaggregate, hv, hi, hp, increment_eq] at hexec
  obtain ⟨t, hexec, hagg, -, hcompletes⟩ := exists_completes_of_reaggregate (rs := [.sumV2, .sumI2, .sumP, .count]) hexec
    (by simp [aggregateRegs, State.readReg])
  exact ⟨t, hexec, hagg, by simpa only [Bool.or_assoc] using hcompletes⟩

/-! ### FINP (R154) -/

theorem finpBody_zeroCount {s : State} (h0 : s.agg.count = 0) : finpBody s = .fatal .zeroCount (s.noteOvf false) := by
  rw [finpBody, if_pos h0, State.noteOvf_false]

theorem finpBody_counted {s : State} (h0 : s.agg.count ≠ 0) :
    finpBody s = .done (s.reaggregate false { s.agg with nDone := s.agg.count, sumP := 0 }
      { s.totals with power := meanSigned s.agg.sumP s.agg.count }) := by
  rw [finpBody, if_neg h0, State.reaggregate, State.noteOvf_false]

/-- The quotient of R154 always fits: it lies between 0 and the sum. -/
theorem toInt_meanSigned (sum count : Word) : (meanSigned sum count).toInt = sum.toInt.tdiv count.toNat := by
  have hlo := sum.le_toInt
  have hhi := sum.toInt_lt
  have hcount : 0 ≤ (count.toNat : Int) := Int.natCast_nonneg _
  rcases le_total 0 sum.toInt with hsum | hsum
  · have hnonneg := Int.tdiv_nonneg hsum hcount
    have hle := Int.tdiv_le_self (count.toNat : Int) hsum
    exact toInt_wrap32 (by omega) (by omega)
  · have hnonneg := Int.tdiv_nonneg (Int.neg_nonneg_of_nonpos hsum) hcount
    have hle := Int.tdiv_le_self (count.toNat : Int) (Int.neg_nonneg_of_nonpos hsum)
    rw [Int.neg_tdiv] at hnonneg hle
    exact toInt_wrap32 (by omega) (by omega)

/-- Settles O32: the counted end is `finpBody_counted`, its mean exact by `toInt_meanSigned`; a zero count's halt comes
before any write. -/
theorem finpReportsTheMeanPower : Obligations.FinpReportsTheMeanPower := by
  unfold Obligations.FinpReportsTheMeanPower
  intro s hh
  constructor
  · intro h0
    have hexec := exec_finp hh
    rw [finpBody_counted h0, Effect.finish_done] at hexec
    obtain ⟨t, hexec, hagg, htot, hcompletes⟩ := exists_completes_of_reaggregate (rs := [.totPower, .nDone, .sumP]) hexec
      (by simp [aggregateRegs, State.readReg])
    exact ⟨t, hexec, by rw [htot, toInt_meanSigned], hagg, hcompletes⟩
  · intro h0
    exact ⟨_, by rw [exec_finp hh, finpBody_zeroCount h0, Effect.finish_fatal], s.takeFatal_halts .finp .zeroCount false⟩

/-! ### FINRMS: the published values (R155) -/

theorem meanUnsigned_eq (sum count : Word) : meanUnsigned sum count = BitVec.ofNat 32 (sum.toNat / count.toNat) :=
  wrap32_natCast _

theorem toNat_ten : ten.toNat = 10 * 65536 := rfl

/-- The voltage total is ten times the root (R155), modulo 2^32. -/
theorem muluQ_ten (w : Word) : muluQ w ten = ⟨BitVec.ofNat 32 (w.toNat * 10), decide (4294967296 ≤ w.toNat * 10)⟩ := by
  have h : w.toNat * ten.toNat / 65536 = w.toNat * 10 := by rw [toNat_ten]; omega
  exact Flagged.eq_of (by rw [muluQ_val, h]) (by rw [muluQ_ovf, h])

/-- The current total is a tenth of the root (R155), so it fits. -/
theorem divuQ_ten (w : Word) : divuQ w ten = ⟨BitVec.ofNat 32 (w.toNat / 10), false⟩ := by
  have h : w.toNat * 65536 / ten.toNat = w.toNat / 10 := by rw [toNat_ten]; omega
  have hfits : ¬ 4294967296 ≤ w.toNat / 10 := by have := w.isLt; omega
  exact Flagged.eq_of (by rw [divuQ_val, h]) (by rw [divuQ_ovf, h, decide_eq_false hfits])

/-! ### FINRMS: how the pseudocode ends (R155) -/

/-- The voltage channel's root of R155: of the mean square, from the seed. -/
def State.voltageRoot (s : State) : Calc :=
  sqrtQ (BitVec.ofNat 32 (s.agg.sumV2.toNat / s.agg.count.toNat)) s.agg.seedV (rmsIterations s.agg.rmsCold)

/-- The current channel's root of R155. -/
def State.currentRoot (s : State) : Calc :=
  sqrtQ (BitVec.ofNat 32 (s.agg.sumI2.toNat / s.agg.count.toNat)) s.agg.seedI (rmsIterations s.agg.rmsCold)

/-- The state in which FINRMS turns to the current channel: the voltage channel's seed and total are written. -/
def State.withVrms (s : State) (r : Flagged) : State :=
  s.reaggregate (r.ovf || decide (4294967296 ≤ r.val.toNat * 10)) { s.agg with seedV := r.val }
    { s.totals with vrms := BitVec.ofNat 32 (r.val.toNat * 10) }

theorem State.publishVrms_eq_withVrms (s : State) (r : Flagged) :
    (s.noteOvf r.ovf).publishVrms r.val = s.withVrms r := by
  rw [State.withVrms, ← State.noteOvf_reaggregate, State.publishVrms, muluQ_ten]; rfl

theorem finrmsBody_zeroCount {s : State} (h0 : s.agg.count = 0) : finrmsBody s = .fatal .zeroCount (s.noteOvf false) := by
  rw [finrmsBody, if_pos h0, State.noteOvf_false]

theorem finrmsBody_counted {s : State} (h0 : s.agg.count ≠ 0) :
    finrmsBody s = s.voltageRoot.andThen s fun root t =>
      finrmsCurrent (rmsIterations s.agg.rmsCold) (t.publishVrms root) := by
  rw [finrmsBody, if_neg h0, State.voltageRoot, ← meanUnsigned_eq]

theorem finrmsBody_voltageFatal {s : State} {c : Cause} {o : Bool} (h0 : s.agg.count ≠ 0)
    (hv : s.voltageRoot = .fatal c o) : finrmsBody s = .fatal c (s.noteOvf o) := by
  rw [finrmsBody_counted h0, hv, Calc.andThen_fatal]

/-- The current channel's root does not see the voltage channel's writes. -/
theorem finrmsBody_voltageValue {s : State} {r : Flagged} (h0 : s.agg.count ≠ 0) (hv : s.voltageRoot = .value r) :
    finrmsBody s = s.currentRoot.andThen (s.withVrms r) fun root t => .done (t.publishIrms root).clearCycle := by
  rw [finrmsBody_counted h0, hv, Calc.andThen_value, State.publishVrms_eq_withVrms, finrmsCurrent, meanUnsigned_eq]
  rfl

theorem finrmsBody_currentFatal {s : State} {r : Flagged} {c : Cause} {o : Bool} (h0 : s.agg.count ≠ 0)
    (hv : s.voltageRoot = .value r) (hi : s.currentRoot = .fatal c o) :
    finrmsBody s = .fatal c (s.reaggregate (r.ovf || decide (4294967296 ≤ r.val.toNat * 10) || o)
      { s.agg with seedV := r.val } { s.totals with vrms := BitVec.ofNat 32 (r.val.toNat * 10) }) := by
  rw [finrmsBody_voltageValue h0 hv, hi, Calc.andThen_fatal, State.withVrms, State.noteOvf_eq_reaggregate,
    State.reaggregate_reaggregate, State.reaggregate_agg, State.reaggregate_totals]

theorem finrmsBody_values {s : State} {r q : Flagged} (h0 : s.agg.count ≠ 0)
    (hv : s.voltageRoot = .value r) (hi : s.currentRoot = .value q) :
    finrmsBody s = .done (s.reaggregate (r.ovf || decide (4294967296 ≤ r.val.toNat * 10) || q.ovf)
      { s.agg with seedV := r.val, seedI := q.val, sumV2 := 0, sumI2 := 0, count := 0, rmsCold := false }
      { s.totals with vrms := BitVec.ofNat 32 (r.val.toNat * 10), irms := BitVec.ofNat 32 (q.val.toNat / 10) }) := by
  rw [finrmsBody_voltageValue h0 hv, hi, Calc.andThen_value, State.publishIrms, divuQ_ten, State.noteOvf_false,
    State.withVrms, State.noteOvf_eq_reaggregate, State.reaggregate_reaggregate]
  rfl

/-! ### FINRMS (R155, R156, R212) -/

/-- Settles O33: along the two runs both roots have values (`sqrtQ_run`), which `finrmsBody_values` publishes. -/
theorem finrmsPublishesBothChannels : Obligations.FinrmsPublishesBothChannels := by
  unfold Obligations.FinrmsPublishesBothChannels
  intro s x y n rv ri hh h0 hseedV hseedI hx hy
  have hv : s.voltageRoot = .value ⟨x n, runOverflows rv n x⟩ := sqrtQ_run hseedV hx
  have hi : s.currentRoot = .value ⟨y n, runOverflows ri n y⟩ := sqrtQ_run hseedI hy
  have hexec := exec_finrms hh
  rw [finrmsBody_values h0 hv hi, Effect.finish_done] at hexec
  obtain ⟨t, hexec, hagg, htot, hcompletes⟩ := exists_completes_of_reaggregate
    (rs := [.seedV, .seedI, .totVrms, .totIrms, .sumV2, .sumI2, .count, .aggCtl]) hexec
    (by simp [aggregateRegs, State.readReg])
  have hirms : (y n).toNat / 10 < 2 ^ 32 := lt_of_le_of_lt (Nat.div_le_self _ _) (y n).isLt
  refine ⟨t, hexec, hagg, ?_, ?_, hcompletes⟩
  · rw [htot, BitVec.toNat_ofNat]
  · rw [htot, BitVec.toNat_ofNat, Nat.mod_eq_of_lt hirms]

/-- A halt before anything is written. -/
theorem exists_halts_of_finrmsBody {s : State} {c : Cause} {o : Bool} (hh : s.status.halted = false)
    (hbody : finrmsBody s = .fatal c (s.noteOvf o)) :
    ∃ t, exec .finrms s = .next t ∧ Halts .finrms c [] o s t :=
  ⟨_, by rw [exec_finrms hh, hbody, Effect.finish_fatal], s.takeFatal_halts .finrms c o⟩

/-- A halt in the current channel, after the voltage channel's seed and total. -/
theorem exists_halts_of_currentRoot {s : State} {r : Flagged} {c : Cause} {o : Bool} (hh : s.status.halted = false)
    (h0 : s.agg.count ≠ 0) (hv : s.voltageRoot = .value r) (hi : s.currentRoot = .fatal c o) :
    ∃ t, exec .finrms s = .next t ∧ t.agg = { s.agg with seedV := r.val } ∧
      t.totals.vrms.toNat = r.val.toNat * 10 % 4294967296 ∧
      Halts .finrms c [.seedV, .totVrms] (r.ovf || decide (4294967296 ≤ r.val.toNat * 10) || o) s t := by
  have hexec := exec_finrms hh
  rw [finrmsBody_currentFatal h0 hv hi, Effect.finish_fatal] at hexec
  obtain ⟨t, hexec, hagg, htot, hhalts⟩ := exists_halts_of_reaggregate (rs := [.seedV, .totVrms]) hexec
    (by simp [aggregateRegs, State.readReg])
  exact ⟨t, hexec, hagg, by rw [htot, BitVec.toNat_ofNat], hhalts⟩

/-- Settles O34: a zero count is tested first; each channel's root is fatal on a zero seed (`sqrtQ_zeroSeed`) or on a
zero iterate with an iteration left (`sqrtQ_zeroIterate`), the current channel's after the voltage channel's writes. -/
theorem finrmsHaltsOnAZeroCountSeedOrIterate : Obligations.FinrmsHaltsOnAZeroCountSeedOrIterate := by
  unfold Obligations.FinrmsHaltsOnAZeroCountSeedOrIterate
  intro s x n rv ri ov hh
  refine ⟨?zeroCount, ?zeroSeedV, ?zeroIterateV, ?current⟩
  case zeroCount =>
    intro h0
    exact exists_halts_of_finrmsBody hh (finrmsBody_zeroCount h0)
  case zeroSeedV =>
    intro h0 hseed
    have hv : s.voltageRoot = .fatal .zeroSeed false := by rw [State.voltageRoot, hseed, sqrtQ_zeroSeed]
    exact exists_halts_of_finrmsBody hh (finrmsBody_voltageFatal h0 hv)
  case zeroIterateV =>
    intro k hk h0 hseed hrun hz
    have hv : s.voltageRoot = .fatal .divZero (runOverflows rv k x) := sqrtQ_zeroIterate hseed hk hrun hz
    exact exists_halts_of_finrmsBody hh (finrmsBody_voltageFatal h0 hv)
  case current =>
    intro h0 hseedV hx
    have hv : s.voltageRoot = .value ⟨x n, runOverflows rv n x⟩ := sqrtQ_run hseedV hx
    constructor
    · intro hseed
      have hi : s.currentRoot = .fatal .zeroSeed false := by rw [State.currentRoot, hseed, sqrtQ_zeroSeed]
      simpa only [Bool.or_false] using exists_halts_of_currentRoot hh h0 hv hi
    · intro k y hk hseed hrun hz
      have hi : s.currentRoot = .fatal .divZero (runOverflows ri k y) := sqrtQ_zeroIterate hseed hk hrun hz
      exact exists_halts_of_currentRoot hh h0 hv hi

end Sys2Proof.Machine
end

section
/-! Part of the laws: EnergyIntegrator (44_energyintegrator R166 to R170) in the terms of the statements. FINE ends in one
write of the energy registers and the energy total with its flag (`State.withEnergy`). -/

namespace Sys2Proof.Machine

open Sys2Proof.Statements

/-! ### A write of the energy registers and the energy total -/

/-- The registers of R40 and `TOT_ENERGY` rewritten, with the flag of the arithmetic. -/
def State.withEnergy (s : State) (o : Bool) (regs : EnergyRegs) (total : Word) : State :=
  { s.noteOvf o with energy := regs, totals.energy := total }

@[simp] theorem State.withEnergy_energy (s : State) (o : Bool) (regs : EnergyRegs) (total : Word) :
    (s.withEnergy o regs total).energy = regs := rfl
@[simp] theorem State.withEnergy_totals (s : State) (o : Bool) (regs : EnergyRegs) (total : Word) :
    (s.withEnergy o regs total).totals = { s.totals with energy := total } := rfl

theorem State.noteOvf_withEnergy (s : State) (o o' : Bool) (regs : EnergyRegs) (total : Word) :
    (s.noteOvf o).withEnergy o' regs total = s.withEnergy (o || o') regs total := by
  rw [State.withEnergy, State.noteOvf_noteOvf]; rfl

/-- Of two writes the second stands, and the flags of both. -/
theorem State.withEnergy_withEnergy (s : State) (o o' : Bool) (regs regs' : EnergyRegs) (total total' : Word) :
    (s.withEnergy o regs total).withEnergy o' regs' total' = s.withEnergy (o || o') regs' total' :=
  s.noteOvf_withEnergy o o' regs' total'

theorem State.withEnergy_keepsAllBut (s : State) (o : Bool) (regs : EnergyRegs) (total : Word) :
    KeepsAllBut [.status, .eCycle, .eAcc, .totEnergy] s (s.withEnergy o regs total) :=
  { KeepsAllBut.refl [.status, .eCycle, .eAcc, .totEnergy] s with
    regs := fun r hr => by
      cases r with
      | status | eCycle | eAcc | totEnergy => simp at hr
      | _ => rfl }

/-! ### The cycle's energy (R166 to R168) -/

theorem pat_toInt (w : Word) : pat w.toInt = w := BitVec.ofInt_toInt

/-- A word's own signed value always fits. -/
theorem outS_toInt (w : Word) : outS w.toInt = false := by
  have hlo := w.le_toInt
  have hhi := w.toInt_lt
  simp only [outS, Bool.or_eq_false_iff, decide_eq_false_iff_not]
  omega

theorem cycleSeconds_eq (periodDone nDone : Word) :
    let secs := periodDone.toNat * nDone.toNat * 65536 / 1000000000
    cycleSeconds periodDone nDone = ⟨pat secs, outS secs⟩ := narrowS_eq _

/-- The multiplication of R167; outside test mode the energy is passed on, which never overflows. -/
theorem testScale_eq (testMode : Bool) (w : Word) :
    let scaled := if testMode then w.toInt * 3600 else w.toInt
    testScale testMode w = ⟨pat scaled, outS scaled⟩ := by
  cases testMode with
  | true => exact narrowS_eq _
  | false => exact Flagged.eq_of (pat_toInt w).symm (outS_toInt w).symm

/-- The pseudocode of R166 up to `E_CYCLE`, on exact integers. -/
theorem cycleEnergy_eq (power periodDone nDone : Word) (testMode : Bool) :
    let secs := periodDone.toNat * nDone.toNat * 65536 / 1000000000
    let e := mulExact power (pat secs)
    let scaled := if testMode then (pat e).toInt * 3600 else (pat e).toInt
    cycleEnergy power periodDone nDone testMode = ⟨pat scaled, outS secs || outS e || outS scaled⟩ := by
  simp only [cycleEnergy, cycleSeconds_eq, mulQ_eq, testScale_eq]

/-! ### The carry (R169, R170) -/

theorem toInt_energyCarry : energyCarry.toInt = 0x0E100000 := rfl

theorem addU_energyStep (w : Word) : addU w energyStep = ⟨pat (w.toNat + 65), outU (w.toNat + 65)⟩ := addU_eq w energyStep

/-- At 3600.0 Ws or more the accumulator is cleared and the total steps by 65; below, nothing happens. -/
theorem State.energyCarryStep_withEnergy (s : State) (o : Bool) (cycle acc : Word) :
    let carry := decide (0x0E100000 ≤ acc.toInt)
    (s.withEnergy o ⟨cycle, acc⟩ s.totals.energy).energyCarryStep =
      s.withEnergy (o || carry && outU (s.totals.energy.toNat + 65)) ⟨cycle, if carry then 0 else acc⟩
        (if carry then pat (s.totals.energy.toNat + 65) else s.totals.energy) := by
  intro carry
  rw [State.energyCarryStep, toInt_energyCarry, State.withEnergy_energy, State.withEnergy_totals, addU_energyStep]
  by_cases h : 0x0E100000 ≤ acc.toInt
  · have hcarry : carry = true := decide_eq_true h
    rw [if_pos h, hcarry, Bool.true_and, if_pos rfl, if_pos rfl]
    exact s.withEnergy_withEnergy o _ ⟨cycle, acc⟩ ⟨cycle, 0⟩ s.totals.energy _
  · have hcarry : carry = false := decide_eq_false h
    rw [if_neg h, hcarry, Bool.false_and, Bool.or_false]
    rfl

theorem toNat_steppedTotal (total : Word) (carry : Bool) :
    (if carry then pat (total.toNat + 65) else total).toNat = (total.toNat + if carry then 65 else 0) % 4294967296 := by
  cases carry with
  | true => exact toNat_pat (total.toNat + 65)
  | false => exact (Nat.mod_eq_of_lt total.isLt).symm

/-! ### FINE (R166) -/

theorem State.integrateEnergy_eq (s : State) :
    let e := cycleEnergy s.totals.power s.tracker.periodDone s.agg.nDone s.ctrl.testMode
    let acc := addS s.energy.eAcc e.val
    s.integrateEnergy =
      (s.withEnergy (e.ovf || acc.ovf) ⟨e.val, acc.val⟩ s.totals.energy).energyCarryStep := rfl

/-- Settles O35: FINE narrows the exact energy (`cycleEnergy_eq`) and sum (`addS_eq`), then carries
(`State.energyCarryStep_withEnergy`). -/
theorem fineIntegratesTheCyclesEnergy : Obligations.FineIntegratesTheCyclesEnergy := by
  unfold Obligations.FineIntegratesTheCyclesEnergy
  intro s hh secs e e' acc carry
  have hexec := exec_fine hh
  rw [State.integrateEnergy_eq, cycleEnergy_eq, addS_eq, State.energyCarryStep_withEnergy] at hexec
  refine ⟨_, hexec, ?_, ?_, .of_body (s.withEnergy_keepsAllBut _ _ _) rfl rfl rfl⟩
  · rw [State.advance_energy, State.withEnergy_energy]
  · rw [State.advance_totals, State.withEnergy_totals]
    exact toNat_steppedTotal s.totals.energy carry

end Sys2Proof.Machine
end

section
/-! Part of the laws: TariffBillingEngine (45_tariffbilling R176 to R182) in the terms of the statements. BILL notes the
mode, then ends in one write of the billing registers and the cost total with its flag (`State.withBill`). -/

namespace Sys2Proof.Machine

open Sys2Proof.Statements

/-! ### A write of the billing registers and the cost total -/

/-- The registers of R41 and `TOT_COST` rewritten, with the flag of the arithmetic. -/
def State.withBill (s : State) (o : Bool) (regs : BillRegs) (cost : Word) : State :=
  { s.noteOvf o with bill := regs, totals.cost := cost }

@[simp] theorem State.withBill_bill (s : State) (o : Bool) (regs : BillRegs) (cost : Word) :
    (s.withBill o regs cost).bill = regs := rfl
@[simp] theorem State.withBill_cost (s : State) (o : Bool) (regs : BillRegs) (cost : Word) :
    (s.withBill o regs cost).totals.cost = cost := rfl
@[simp] theorem State.withBill_params (s : State) (o : Bool) (regs : BillRegs) (cost : Word) :
    (s.withBill o regs cost).params = s.params := rfl

/-- Of two writes the second stands, and the flags of both. -/
theorem State.withBill_withBill (s : State) (o o' : Bool) (regs regs' : BillRegs) (cost cost' : Word) :
    (s.withBill o regs cost).withBill o' regs' cost' = s.withBill (o || o') regs' cost' :=
  calc
    _ = { (s.noteOvf o).noteOvf o' with bill := regs', totals.cost := cost' } := rfl
    _ = _ := by rw [State.noteOvf_noteOvf]; rfl

theorem State.withBill_keepsAllBut (s : State) (o : Bool) (regs : BillRegs) (cost : Word) :
    KeepsAllBut [.status, .mcCycle, .mcAcc, .cents, .totCost] s (s.withBill o regs cost) :=
  { KeepsAllBut.refl [.status, .mcCycle, .mcAcc, .cents, .totCost] s with
    regs := fun r hr => by
      cases r with
      | status | mcCycle | mcAcc | cents | totCost => simp at hr
      | _ => rfl }

theorem State.noteMode_keepsAllBut (s : State) (bad : Bool) : KeepsAllBut [.status] s (s.noteMode bad) :=
  { KeepsAllBut.refl [.status] s with
    regs := fun r hr => by
      cases r with
      | status => simp at hr
      | _ => rfl }

/-! ### The mode and its rate (R177, R178) -/

theorem tariffModeOf_isNone (mode : BitVec 16) :
    (tariffModeOf mode).isNone = decide (mode.toNat ∉ [1, 2, 3]) := by
  unfold tariffModeOf
  split_ifs with h1 h2 h3
  · simp [h1]
  · simp [h2]
  · simp [h3]
  · have hnone : mode.toNat ∉ [1, 2, 3] := by
      simp only [List.mem_cons, List.not_mem_nil, or_false]
      bv_omega
    simp [hnone]

theorem hoursField_eq (hms : BitVec 24) : hoursField hms = hms.toNat / 65536 := by
  have hlt := hms.isLt
  rw [hoursField, BitVec.extractLsb'_toNat, Nat.shiftRight_eq_div_pow]
  omega

/-- The source's tests, peak first, select by R178's table of hours. -/
theorem timeOfUseRate_eq (r : RateRegs) (h : Nat) :
    timeOfUseRate r h =
      if h ≤ 6 then r.t1Offpeak
      else if h ≤ 13 then r.t1Shoulder
      else if h ≤ 20 then r.t1Peak
      else if h = 21 then r.t1Shoulder
      else r.t1Offpeak := by
  unfold timeOfUseRate
  by_cases hpeak : 14 ≤ h ∧ h ≤ 20
  · rw [if_pos hpeak, if_neg (by omega), if_neg (by omega), if_pos hpeak.2]
  rw [if_neg hpeak]
  by_cases hshoulder : (7 ≤ h ∧ h ≤ 13) ∨ (20 ≤ h ∧ h ≤ 21)
  · have hhour : h = 21 ∨ 7 ≤ h ∧ h ≤ 13 := by omega
    rw [if_pos hshoulder, if_neg (by omega)]
    obtain rfl | hmorning := hhour
    · rfl
    · rw [if_pos hmorning.2]
  · have hhour : h ≤ 6 ∨ 22 ≤ h := by omega
    rw [if_neg hshoulder]
    obtain hearly | hlate := hhour
    · rw [if_pos hearly]
    · rw [if_neg (by omega), if_neg (by omega), if_neg (by omega), if_neg (by omega)]

/-- The rate BILL selects, an unrecognised mode being billed as mode 1. -/
theorem rateOf_eq_billedRate (r : RateRegs) (mode : BitVec 16) (hms : BitVec 24) :
    rateOf r hms ((tariffModeOf mode).getD .timeOfUse) = billedRate r mode hms := by
  by_cases h2 : mode = 2
  · subst h2; rfl
  by_cases h3 : mode = 3
  · subst h3; rfl
  have hmode : (tariffModeOf mode).getD .timeOfUse = .timeOfUse := by
    rw [tariffModeOf, if_neg h2, if_neg h3]
    split <;> rfl
  rw [hmode, rateOf, timeOfUseRate_eq, hoursField_eq, billedRate, if_neg h2, if_neg h3]

/-! ### The cycle's cost (R180) -/

theorem cycleCost_eq (rate eCycle : Word) :
    let m := mulExact rate eCycle
    let mc := divExact (pat m) 0x0E100000
    cycleCost rate eCycle = ⟨pat mc, outS m || outS mc⟩ := by
  simp only [cycleCost, wsPerWh, mulQ_eq, divQ_eq]

/-! ### The carries (R181, R182) -/

/-- A register stepped by `k` where a carry goes into it. -/
def carryInto (carry : Bool) (k : Nat) (w : Word) : Word := if carry then pat (w.toNat + k : Nat) else w

theorem toNat_carryInto (carry : Bool) (k : Nat) (w : Word) :
    (carryInto carry k w).toNat = (w.toNat + if carry then k else 0) % 4294967296 := by
  cases carry with
  | true => exact toNat_pat (w.toNat + k)
  | false => exact (Nat.mod_eq_of_lt w.isLt).symm

theorem addU_one (w : Word) : addU w 1 = ⟨carryInto true 1 w, decide (w.toNat = 4294967295)⟩ :=
  Flagged.eq_of rfl (increment_ovf w)

theorem addU_dollar (w : Word) : addU w dollar = ⟨carryInto true 65536 w, outU (w.toNat + 65536)⟩ :=
  addU_eq w dollar

theorem toInt_mcCarry : mcCarry.toInt = 0x03E80000 := rfl

theorem mcResidue_eq (p : Params) (acc : Word) :
    mcResidue p acc = if decide (p.costCarryResidue = .subtract) then pat (acc.toInt - 0x03E80000) else 0 := by
  unfold mcResidue
  cases p.costCarryResidue <;> rfl

/-- Above the threshold the subtraction of R182 does not wrap. -/
theorem toNat_wrap32_sub_centsCarry {cents : Word} (h : 100 < cents.toNat) :
    (wrap32 ((cents.toNat : Int) - centsCarry)).toNat = cents.toNat - 100 := by
  have hlt := cents.isLt
  have hsub : (cents.toNat : Int) - centsCarry = (cents.toNat - 100 : Nat) := (Nat.cast_sub h.le).symm
  rw [hsub, toNat_wrap32_natCast, Nat.mod_eq_of_lt (by omega)]

theorem toNat_centsResidue (p : Params) {cents : Word} (h : 100 < cents.toNat) :
    (centsResidue p cents).toNat = if decide (p.costCarryResidue = .subtract) then cents.toNat - 100 else 0 := by
  unfold centsResidue
  cases p.costCarryResidue with
  | zero => rfl
  | subtract => simp [toNat_wrap32_sub_centsCarry h]

/-- Above 1000.0 one cent is added and the millicents keep their residue; at most 1000.0, nothing happens. -/
theorem State.centCarryStep_withBill (s : State) (o : Bool) (cycle acc cents cost : Word) :
    let cent := decide (0x03E80000 < acc.toInt)
    (s.withBill o ⟨cycle, acc, cents⟩ cost).centCarryStep =
      s.withBill (o || cent && decide (cents.toNat = 4294967295))
        ⟨cycle, if cent then mcResidue s.params acc else acc, carryInto cent 1 cents⟩ cost := by
  intro cent
  rw [State.centCarryStep, toInt_mcCarry, State.withBill_bill, State.withBill_params, addU_one]
  by_cases h : 0x03E80000 < acc.toInt
  · have hcent : cent = true := decide_eq_true h
    rw [if_pos h, hcent, Bool.true_and, if_pos rfl]
    exact s.withBill_withBill o _ ⟨cycle, acc, cents⟩ _ cost cost
  · have hcent : cent = false := decide_eq_false h
    rw [if_neg h, hcent, Bool.false_and, Bool.or_false]
    rfl

/-- Above 100 cents one dollar is added and the cents keep their residue; at most 100, nothing happens. -/
theorem State.dollarCarryStep_withBill (s : State) (o : Bool) (cycle acc cents cost : Word) :
    let dollar := decide (100 < cents.toNat)
    (s.withBill o ⟨cycle, acc, cents⟩ cost).dollarCarryStep =
      s.withBill (o || dollar && outU (cost.toNat + 65536))
        ⟨cycle, acc, if dollar then centsResidue s.params cents else cents⟩ (carryInto dollar 65536 cost) := by
  intro carry
  rw [State.dollarCarryStep, centsCarry, State.withBill_bill, State.withBill_params, State.withBill_cost, addU_dollar]
  by_cases h : 100 < cents.toNat
  · have hcarry : carry = true := decide_eq_true h
    rw [if_pos h, hcarry, Bool.true_and, if_pos rfl]
    dsimp only
    exact s.withBill_withBill o _ ⟨cycle, acc, cents⟩ _ cost _
  · have hcarry : carry = false := decide_eq_false h
    rw [if_neg h, hcarry, Bool.false_and, Bool.or_false]
    rfl

/-- What the dollar carry leaves in `CENTS`. -/
theorem toNat_centsAfterDollar (p : Params) {due : Word} {cents : Nat} (hdue : due.toNat = cents) :
    let dollar := decide (100 < cents)
    (if dollar then centsResidue p due else due).toNat =
      if dollar then if decide (p.costCarryResidue = .subtract) then cents - 100 else 0 else cents := by
  intro dollar
  subst hdue
  by_cases h : 100 < due.toNat
  · have hdollar : dollar = true := decide_eq_true h
    rw [hdollar, if_pos rfl, if_pos rfl, toNat_centsResidue p h]
  · have hdollar : dollar = false := decide_eq_false h
    rw [hdollar]; rfl

/-! ### BILL (R176) -/

theorem State.billCycle_eq (s : State) :
    let mode := tariffModeOf s.inputs.tariffMode
    let mc := cycleCost (rateOf s.rates s.inputs.wcHms (mode.getD .timeOfUse)) s.energy.eCycle
    let acc := addS s.bill.mcAcc mc.val
    s.billCycle = (((s.noteMode mode.isNone).withBill (mc.ovf || acc.ovf) ⟨mc.val, acc.val, s.bill.cents⟩
      s.totals.cost).centCarryStep).dollarCarryStep := rfl

/-- The pseudocode of R176 on exact integers: the mode noted, and one write of the billing registers and the total. -/
theorem State.billCycle_eq_withBill (s : State) :
    let m := mulExact (billedRate s.rates s.inputs.tariffMode s.inputs.wcHms) s.energy.eCycle
    let mc := divExact (pat m) 0x0E100000
    let acc := s.bill.mcAcc.toInt + (pat mc).toInt
    let cent := decide (0x03E80000 < (pat acc).toInt)
    let due := carryInto cent 1 s.bill.cents
    let cents := (s.bill.cents.toNat + if cent then 1 else 0) % 4294967296
    let dollar := decide (100 < cents)
    s.billCycle = (s.noteMode (decide (s.inputs.tariffMode.toNat ∉ [1, 2, 3]))).withBill
      (outS m || outS mc || outS acc || cent && decide (s.bill.cents.toNat = 4294967295) ||
        dollar && outU (s.totals.cost.toNat + 65536))
      ⟨pat mc, if cent then mcResidue s.params (pat acc) else pat acc,
        if dollar then centsResidue s.params due else due⟩
      (carryInto dollar 65536 s.totals.cost) := by
  intro m mc acc cent due cents dollar
  rw [State.billCycle_eq, rateOf_eq_billedRate, cycleCost_eq, addS_eq, tariffModeOf_isNone,
    State.centCarryStep_withBill, State.dollarCarryStep_withBill, toNat_carryInto]
  rfl

/-- Settles O36: BILL's one write (`State.billCycle_eq_withBill`), read field by field; what the carries leave is
`mcResidue_eq` and `toNat_centsAfterDollar`. -/
theorem billAccruesTheCyclesCost : Obligations.BillAccruesTheCyclesCost := by
  unfold Obligations.BillAccruesTheCyclesCost
  intro s hh m mc acc cent cents dollar keep
  have hbody := s.billCycle_eq_withBill
  have hcompletes : Completes [.mcCycle, .mcAcc, .cents, .totCost]
      (outS m || outS mc || outS acc || cent && decide (s.bill.cents.toNat = 4294967295) ||
        dollar && outU (s.totals.cost.toNat + 65536))
      (s.noteMode (decide (s.inputs.tariffMode.toNat ∉ [1, 2, 3]))) s.billCycle.advance := by
    rw [hbody]
    exact .of_body (State.withBill_keepsAllBut _ _ _ _) rfl rfl rfl
  refine ⟨_, exec_bill hh, ?mcCycle, ?mcAcc, ?cents, ?cost, hcompletes.status, hcompletes.seqPc, ?frame⟩
  case mcCycle => rw [State.advance_bill, hbody, State.withBill_bill]
  case mcAcc => rw [State.advance_bill, hbody, State.withBill_bill, mcResidue_eq]
  case cents =>
    rw [State.advance_bill, hbody, State.withBill_bill]
    exact toNat_centsAfterDollar s.params (toNat_carryInto cent 1 s.bill.cents)
  case cost =>
    rw [State.advance_totals, hbody, State.withBill_cost]
    exact toNat_carryInto dollar 65536 s.totals.cost
  case frame => exact ((s.noteMode_keepsAllBut _).mono (by simp)).trans hcompletes.frame

end Sys2Proof.Machine
end

section
/-! Part of the laws: PowerFactorEstimator (46_powerfactor R191, R192) in the terms of the statements. -/

namespace Sys2Proof.Machine

open Sys2Proof.Statements

theorem muluQ_eq (a b : Word) :
    muluQ a b = ⟨BitVec.ofNat 32 (muluExact a b), decide (4294967296 ≤ muluExact a b)⟩ :=
  Flagged.eq_of (muluQ_val a b) (muluQ_ovf a b)

/-- The pseudocode of R191 on exact integers: one write of `TOT_PF`, which puts the old value back when the truncated
product is zero (R192). -/
theorem State.estimatePf_eq_reaggregate (s : State) :
    let m := muluExact s.totals.vrms s.totals.irms
    let p := BitVec.ofNat 32 m
    let q := divExact s.totals.power p
    s.estimatePf = s.reaggregate
      (decide (4294967296 ≤ m) || decide (p ≠ 0) && (decide (2147483648 ≤ p.toNat) || outS q)) s.agg
      { s.totals with pf := if p = 0 then s.totals.pf else pat q } := by
  intro m p q
  rw [State.estimatePf, muluQ_eq]
  by_cases h : p = 0
  · have hguard : decide (p ≠ 0) = false := decide_eq_false (not_not_intro h)
    rw [if_pos h, if_pos h, hguard, Bool.false_and, Bool.or_false]
    rfl
  · have hguard : decide (p ≠ 0) = true := decide_eq_true h
    rw [if_neg h, if_neg h, hguard, Bool.true_and, ← State.noteOvf_reaggregate, divQ_eq]
    rfl

/-- Settles O37: FINPF's one write of `TOT_PF` (`State.estimatePf_eq_reaggregate`) leaves every other register of the
totals and the aggregator as it was. -/
theorem finpfDividesByTheRmsProduct : Obligations.FinpfDividesByTheRmsProduct := by
  unfold Obligations.FinpfDividesByTheRmsProduct
  intro s hh m p q
  have hexec := exec_finpf hh
  rw [State.estimatePf_eq_reaggregate] at hexec
  obtain ⟨t, hexec, -, htot, hcompletes⟩ := exists_completes_of_reaggregate (rs := [.totPf]) hexec
    (by simp [aggregateRegs, State.readReg])
  exact ⟨t, hexec, by rw [htot], hcompletes⟩

end Sys2Proof.Machine
end

section
/-! Part of the laws: CalculationScheduler (47_scheduler R195 to R203). What the sequencer runs at each ROM index and what
NOP, BNB and JMP write; then, per operation and per move, which of the totals it may change. -/

namespace Sys2Proof.Machine

open Sys2Proof.Statements

/-! ### The sequencer's operations (R195, R198 to R201) -/

/-- The ROM's words decode to R195's ten operations, in its order. -/
theorem fetchOperation_eq_getElem? (pc : BitVec 4) : fetchOperation pc =
    ([.pop, .ftstep, .acc, .bnb 0, .finp, .finrms, .fine, .bill, .finpf, .jmp 0] : List Instr)[pc.toNat]? := by
  revert pc; decide

/-- Settles O6: at `SEQ_PC` the sequencer fetches R195's operation (`fetchOperation_eq_getElem?`) and runs it
(`consumerMove_runs`). -/
theorem stepRunsTheRomOperation : Obligations.StepRunsTheRomOperation := by
  unfold Obligations.StepRunsTheRomOperation
  intro s i hmove hh hw hr hi
  rw [step_consumer hmove]
  exact consumerMove_runs hh hw hr ((fetchOperation_eq_getElem? s.seqPc).trans hi)

theorem State.advance_eq_withSeqPc (s : State) :
    s.advance = { s with seqPc := if s.ctrl.run then s.seqPc + 1 else s.seqPc } := by
  unfold State.advance
  split <;> rfl

/-- Settles O38: NOP is the advance of `SEQ_PC` alone (`exec_nop`). -/
theorem nopChangesNothingElse : Obligations.NopChangesNothingElse := by
  unfold Obligations.NopChangesNothingElse
  intro s hh
  rw [exec_nop hh, State.advance_eq_withSeqPc]

theorem toNat_romTarget {k : BitVec 8} (hk : k.toNat ≤ 9) : (romTarget k).toNat = k.toNat := by
  rw [romTarget, BitVec.toNat_setWidth, Nat.mod_eq_of_lt (by omega)]

/-- Settles O39: in RUN mode one write of `SEQ_PC` (`exec_jmp_run`, `exec_bnb_run`), in DIRECT mode the refusal of R88. -/
theorem bnbAndJmpSetOnlyTheProgramCounter : Obligations.BnbAndJmpSetOnlyTheProgramCounter := by
  unfold Obligations.BnbAndJmpSetOnlyTheProgramCounter
  intro s k hh hk
  refine ⟨fun hr => ⟨?jmp, ?bnb⟩, fun hr i hi => ?direct⟩
  case jmp => exact ⟨_, exec_jmp_run k hh hr, toNat_romTarget hk, s.withSeqPc_keepsAllBut _⟩
  case bnb => exact ⟨_, exec_bnb_run k hh hr, rfl, s.withSeqPc_keepsAllBut _⟩
  case direct =>
    refine ⟨s.cmdRefused, ?_, rfl, s.cmdRefused_keepsAllBut⟩
    obtain rfl | rfl := hi
    · exact exec_jmp_direct k hh hr
    · exact exec_bnb_direct k hh hr

/-! ### What an operation writes of the totals (R203) -/

theorem Effect.finish_totals (op : BitVec 8) (e : Effect) : (e.finish op).totals = e.state.totals := by
  cases e with
  | done u => exact u.advance_totals
  | blocked u => rfl
  | fatal c u => exact u.takeFatal_totals op c

/-- Of the totals, an operation changes only those it finalises; FTSTEP only where it sets `BOUNDARY`. -/
structure WritesOwnTotals (i : Instr) (s t : State) : Prop where
  freq : t.totals.freq ≠ s.totals.freq → i = .ftstep ∧ t.tracker.boundary = true
  power : t.totals.power ≠ s.totals.power → i = .finp
  vrms : t.totals.vrms ≠ s.totals.vrms → i = .finrms
  irms : t.totals.irms ≠ s.totals.irms → i = .finrms
  energy : t.totals.energy ≠ s.totals.energy → i = .fine
  cost : t.totals.cost ≠ s.totals.cost → i = .bill
  pf : t.totals.pf ≠ s.totals.pf → i = .finpf

theorem WritesOwnTotals.of_totals_eq (i : Instr) {s t : State} (h : t.totals = s.totals) : WritesOwnTotals i s t := by
  constructor <;> simp [h]

/-- The end of an operation writes no total beyond its body. -/
theorem WritesOwnTotals.of_operate {i : Instr} {body : State → Effect}
    (hbody : ∀ s, WritesOwnTotals i s (body s).state) (s t : State) (h : operate i body s = .next t) :
    WritesOwnTotals i s t := by
  obtain ⟨-, rfl⟩ | ⟨-, rfl⟩ := operate_cases h
  · exact .of_totals_eq i rfl
  · obtain ⟨freq, power, vrms, irms, energy, cost, pf⟩ := hbody s
    constructor <;> simpa only [Effect.finish_totals, Effect.finish_tracker]

theorem WritesOwnTotals.of_transfer (i : Instr) {f : State → BitVec 4} (s t : State) (h : transfer f s = .next t) :
    WritesOwnTotals i s t := by
  unfold transfer at h
  split at h
  · cases h; exact .of_totals_eq i rfl
  · split at h <;> cases h <;> exact .of_totals_eq i rfl

theorem Calc.andThen_putRes_totals (c : Calc) (s : State) :
    (c.andThen s fun w t => .done (t.putRes w)).state.totals = s.totals := by
  cases c <;> rfl

theorem popBody_totals (s : State) : (popBody s).state.totals = s.totals := by
  unfold popBody
  split <;> rfl

/-- FTSTEP writes `TOT_FREQ` at a boundary only (R138). -/
theorem ftstepBody_totals (s : State) : (ftstepBody s).state.totals = s.totals ∨
    (ftstepBody s).state.tracker.boundary = true ∧
      ∃ f, (ftstepBody s).state.totals = { s.totals with freq := f } := by
  cases hst : s.tracker.state with
  | unsynced => rw [ftstepBody_unsynced hst]; exact .inl rfl
  | tracking =>
    by_cases hx : Crosses s.tracker.prev s.regs.rV
    · rw [ftstepBody_locks hst hx]; exact .inl rfl
    · rw [ftstepBody_tracking hst hx]; exact .inl rfl
  | locked =>
    by_cases hx : Crosses s.tracker.prev s.regs.rV
    · cases htog : s.tracker.toggle with
      | false => rw [ftstepBody_enters hst htog hx]; exact .inl rfl
      | true =>
        generalize hp : newPeriod s.tracker.period (increment s.tracker.count).val s.tracker.entry
          (fraction s.regs.rV s.tracker.prev) = p
        obtain hlt | hge := Nat.lt_or_ge p.val.toNat 10
        · rw [ftstepBody_halts hst htog hx hp hlt]; exact .inl rfl
        · rw [ftstepBody_reports hst htog hx hp hge]; exact .inr ⟨rfl, _, rfl⟩
    · rw [ftstepBody_counts hst hx]; exact .inl rfl

theorem finpBody_totals (s : State) : ∃ p, (finpBody s).state.totals = { s.totals with power := p } := by
  by_cases h0 : s.agg.count = 0
  · rw [finpBody_zeroCount h0]; exact ⟨_, rfl⟩
  · rw [finpBody_counted h0]; exact ⟨_, rfl⟩

theorem finrmsBody_totals (s : State) : ∃ v i, (finrmsBody s).state.totals = { s.totals with vrms := v, irms := i } := by
  by_cases h0 : s.agg.count = 0
  · rw [finrmsBody_zeroCount h0]; exact ⟨_, _, rfl⟩
  · cases hv : s.voltageRoot with
    | fatal c o => rw [finrmsBody_voltageFatal h0 hv]; exact ⟨_, _, rfl⟩
    | value r =>
      cases hi : s.currentRoot with
      | fatal c o => rw [finrmsBody_currentFatal h0 hv hi]; exact ⟨_, _, rfl⟩
      | value q => rw [finrmsBody_values h0 hv hi]; exact ⟨_, _, rfl⟩

theorem State.integrateEnergy_totals (s : State) : ∃ e, s.integrateEnergy.totals = { s.totals with energy := e } := by
  rw [State.integrateEnergy_eq, State.energyCarryStep_withEnergy]
  exact ⟨_, rfl⟩

theorem State.billCycle_totals (s : State) : ∃ c, s.billCycle.totals = { s.totals with cost := c } := by
  rw [State.billCycle_eq_withBill]
  exact ⟨_, rfl⟩

theorem State.estimatePf_totals (s : State) : ∃ p, s.estimatePf.totals = { s.totals with pf := p } := by
  rw [State.estimatePf_eq_reaggregate]
  exact ⟨_, rfl⟩

/-- R203, one operation at a time: the totals each body writes. -/
theorem exec_writesOwnTotals (i : Instr) : ∀ s t, exec i s = .next t → WritesOwnTotals i s t := by
  cases i with
  | nop | toq16 | mul | mulu | push | acc => exact .of_operate fun s => .of_totals_eq _ rfl
  | div | divu | sqrt => exact .of_operate fun s => .of_totals_eq _ (Calc.andThen_putRes_totals _ s)
  | pop => exact .of_operate fun s => .of_totals_eq _ (popBody_totals s)
  | ftstep =>
    refine .of_operate fun s => ?_
    obtain heq | ⟨hb, f, hf⟩ := ftstepBody_totals s
    · exact .of_totals_eq _ heq
    · constructor <;> simp [hf, hb]
  | finp =>
    refine .of_operate fun s => ?_
    obtain ⟨p, hp⟩ := finpBody_totals s
    constructor <;> simp [hp]
  | finrms =>
    refine .of_operate fun s => ?_
    obtain ⟨v, i, hvi⟩ := finrmsBody_totals s
    constructor <;> simp [hvi]
  | fine =>
    refine .of_operate fun s => ?_
    obtain ⟨e, he⟩ := s.integrateEnergy_totals
    constructor <;> simp [Effect.state, he]
  | bill =>
    refine .of_operate fun s => ?_
    obtain ⟨c, hc⟩ := s.billCycle_totals
    constructor <;> simp [Effect.state, hc]
  | finpf =>
    refine .of_operate fun s => ?_
    obtain ⟨p, hp⟩ := s.estimatePf_totals
    constructor <;> simp [Effect.state, hp]
  | bnb | jmp => exact .of_transfer _

/-! ### The moves in RUN mode (R203) -/

/-- The consumer's move changes the totals as the operation at `SEQ_PC` may, or as a POP may: not at all. -/
theorem consumerMove_writesOwnTotals {s t : State} (h : consumerMove s = .next t) :
    ∃ i, (i = .pop ∨ fetchOperation s.seqPc = some i) ∧ WritesOwnTotals i s t := by
  obtain rfl | ⟨-, -, -, hexec⟩ | ⟨i, -, -, -, hf, hexec⟩ := consumerMove_cases h
  · exact ⟨.pop, .inl rfl, .of_totals_eq _ rfl⟩
  · exact ⟨.pop, .inl rfl, exec_writesOwnTotals _ s t hexec⟩
  · exact ⟨i, .inr hf, exec_writesOwnTotals _ s t hexec⟩

/-- The totals are of class D. -/
theorem State.putReg_totals_of_classA {r : BusReg} (h : r.hostClass = .a) (s : State) (v : Word) :
    (s.putReg v r).totals = s.totals := by
  cases r <;> first | rfl | cases h

theorem busWriteMove_totals_of_run {a : BusAddr} {v : Word} {s t : State} (hr : s.ctrl.run = true)
    (h : busWriteMove a v s = .next t) : t.totals = s.totals := by
  obtain rfl | ⟨-, hcmd⟩ | ⟨r, -, -, hc, rfl⟩ := busWriteMove_cases h
  · rfl
  · rw [commandMove_run hr] at hcmd
    cases hcmd
    split <;> rfl
  · exact State.putReg_totals_of_classA (State.hostMayWrite_run hr hc) s v

theorem State.tickMove_totals (s : State) (v i : Half) : (s.tickMove v i).totals = s.totals := by
  unfold State.tickMove; split <;> rfl

theorem State.assertWaitFail_totals (s : State) : s.assertWaitFail.totals = s.totals := by
  unfold State.assertWaitFail; split <;> rfl

/-- In RUN mode no agent but the consumer, and reset, reaches a total. -/
theorem applyEvent_totals_of_run {e : Event} {s t : State} (hr : s.ctrl.run = true) (h : applyEvent e s = .next t)
    (hconsumer : e ≠ .consumer) (hreset : ∀ u, e ≠ .reset u) : t.totals = s.totals := by
  cases e with
  | consumer => exact absurd rfl hconsumer
  | tick v i => cases h; exact s.tickMove_totals v i
  | busWrite a v => exact busWriteMove_totals_of_run hr h
  | busRead a => cases h; exact s.busReadMove_totals a
  | waitFail => cases h; exact s.assertWaitFail_totals
  | reset u => exact absurd rfl (hreset u)

/-- No operation stands at two indices of the ROM. -/
theorem fetchOperation_inj {pc pc' : BitVec 4} {i : Instr} (h : fetchOperation pc = some i)
    (h' : fetchOperation pc' = some i) : pc = pc' := by
  have all : ∀ pc pc', ∀ i ∈ fetchOperation pc, i ∈ fetchOperation pc' → pc = pc' := by decide
  exact all pc pc' i h h'

/-- Settles O40: the consumer's move changes only the totals its operation finalises (`consumerMove_writesOwnTotals`), and
that operation stands at one ROM index only (`fetchOperation_inj`); the other moves change none. -/
theorem totalsChangeOnlyByTheirOwnOperation : Obligations.TotalsChangeOnlyByTheirOwnOperation := by
  unfold Obligations.TotalsChangeOnlyByTheirOwnOperation
  intro s t h hr hreset
  rw [step_eq] at h
  have hother (hmove : s.nextMove ≠ .consumer) : t.totals = s.totals :=
    applyEvent_totals_of_run (s := s.popped) hr h hmove hreset
  obtain ⟨i, hi, hw⟩ : ∃ i, (i = .pop ∨ fetchOperation s.seqPc = some i) ∧ WritesOwnTotals i s.popped t := by
    by_cases hmove : s.nextMove = .consumer
    · rw [hmove] at h
      exact consumerMove_writesOwnTotals h
    · exact ⟨.pop, .inl rfl, .of_totals_eq _ (hother hmove)⟩
  have index {j : Instr} {pc : BitVec 4} (hj : i = j) (hpop : j ≠ .pop) (hf : fetchOperation pc = some j) :
      s.seqPc = pc := by
    subst hj
    exact fetchOperation_inj (hi.resolve_left hpop) hf
  refine ⟨fun hne => ?moves, fun hne => ?freq, fun hne => ?power, fun hne => ?vrms, fun hne => ?irms, fun hne => ?energy,
    fun hne => ?cost, fun hne => ?pf⟩
  case moves => exact of_not_not fun hmove => hne (hother hmove)
  case freq => exact ⟨index (hw.freq hne).1 nofun (by decide), (hw.freq hne).2⟩
  case power => exact index (hw.power hne) nofun (by decide)
  case vrms => exact index (hw.vrms hne) nofun (by decide)
  case irms => exact index (hw.irms hne) nofun (by decide)
  case energy => exact index (hw.energy hne) nofun (by decide)
  case cost => exact index (hw.cost hne) nofun (by decide)
  case pf => exact index (hw.pf hne) nofun (by decide)

end Sys2Proof.Machine
end

section
/-! Part of the laws: the agents' moves of 60_exceptions: the producer's tick (R225), every move while halted (R214), and
the `set_period` events (R226). -/

namespace Sys2Proof.Machine

open Sys2Proof.Statements

/-! ### The tick (R225, R121) -/

/-- `ADC_V <- v; ADC_I <- i`. -/
def State.withCodes (s : State) (v i : Half) : State := { s with inputs.adcV := v, inputs.adcI := i }

theorem State.withCodes_readReg {r : BusReg} (hr : r ∉ [.adcV, .adcI]) (s : State) (v i : Half) :
    (s.withCodes v i).readReg r = s.readReg r := by
  cases r with
  | adcV | adcI => simp at hr
  | _ => rfl

theorem State.tickMove_halted {s : State} (hh : s.status.halted = true) (v i : Half) : s.tickMove v i = s := if_pos hh

theorem State.tickMove_running {s : State} (hh : s.status.halted = false) (v i : Half) :
    s.tickMove v i = (s.withCodes v i).pushSample := if_neg (by simp [hh])

theorem step_tick {s : State} {v i : Half} {rest : List Event} (h : s.schedule = .tick v i :: rest) :
    step s = .next (State.tickMove { s with schedule := rest } v i) :=
  step_of_schedule h

/-- Settles O20: the tick is PUSH with the two codes in place (`State.tickMove_running`), so PUSH's laws give the entry
pair, the count and the frame. -/
theorem tickDeliversOneSamplePair : Obligations.TickDeliversOneSamplePair := by
  unfold Obligations.TickDeliversOneSamplePair
  intro s v i rest hs
  rw [step_tick hs]
  refine ⟨fun hh => congrArg _ (State.tickMove_halted (s := { s with schedule := rest }) hh v i), fun hm hh => ?_⟩
  rw [State.tickMove_running (s := { s with schedule := rest }) hh]
  generalize hu : State.withCodes { s with schedule := rest } v i = u
  have hmem : u.mem = s.mem := by subst hu; rfl
  have hchannel : u.channel = s.channel := by subst hu; rfl
  have hstatus : u.status = s.status := by subst hu; rfl
  have hlifted : u.popLifted = s.popLifted := by subst hu; rfl
  have hregs {r : BusReg} (hr : r ∉ [.adcV, .adcI]) : u.readReg r = s.readReg r := by
    rw [← hu, State.withCodes_readReg hr, State.readReg_withSchedule]
  obtain ⟨hv, hi⟩ := Prod.mk.inj (State.pushSample_windowPair_same (hmem ▸ hm))
  refine ⟨u.pushSample, rfl, ?adcV, ?adcI, ?vbuf, ?ibuf, ?avail, ?pcur, ?status, ?lifted, ?events, ?reads, ?schedule,
    ?params, fun a ha => ?bytes, fun r hr => ?frame⟩
  case adcV | adcI | events | reads | schedule | params => subst hu; rfl
  case vbuf => rw [← hchannel, hv, ← hu]; rfl
  case ibuf => rw [← hchannel, hi, ← hu]; rfl
  case avail => rw [State.pushSample_channel, increment_val, BitVec.toNat_ofNat, hchannel]
  case pcur => rw [State.pushSample_channel, hchannel]
  case status => rw [State.pushSample_status, increment_ovf, hstatus, hchannel]
  case lifted =>
    simp only [State.pushSample_popLifted, ne_eq, increment_val_eq_zero_iff, hlifted, hstatus, hchannel]
  case bytes => rw [State.pushSample_readByte (hmem ▸ hm) (hchannel ▸ ha), hmem]
  case frame => rw [State.pushSample_readReg (hmem ▸ hm) (by simp_all), hregs (by simp_all)]

/-! ### While halted (R214) -/

theorem State.hostMayWrite_halted {s : State} (hh : s.status.halted = true) (c : HostClass) :
    s.hostMayWrite c = false := by
  cases c <;> simp [State.hostMayWrite, hh]

theorem busWriteMove_halted {s : State} (hh : s.status.halted = true) (a : BusAddr) (v : Word) :
    busWriteMove a v s = .next s := by
  cases hd : busDecode a with
  | none => rw [busWriteMove, hd]
  | some r =>
    by_cases hr : r = .cmd
    · rw [busWriteMove, hd, hr]
      exact commandMove_halted hh v
    · rw [busWriteMove_register hd hr, State.hostWriteReg_forbidden (State.hostMayWrite_halted hh _)]

/-- While halted a move that is neither a bus read nor reset answers the state it was made in. -/
theorem applyEvent_halted {e : Event} {s : State} (hh : s.status.halted = true) (hread : ∀ a, e ≠ .busRead a)
    (hreset : ∀ u, e ≠ .reset u) : applyEvent e s = .next s := by
  cases e with
  | consumer => exact consumerMove_halted hh
  | tick v i => exact congrArg _ (State.tickMove_halted hh v i)
  | busWrite a v => exact busWriteMove_halted hh a v
  | busRead a => exact absurd rfl (hread a)
  | waitFail => exact congrArg _ (State.assertWaitFail_notSuspended (.inl hh))
  | reset u => exact absurd rfl (hreset u)

/-- Settles O41: a bus read adds its data to the reads' trace, whatever else the next move is changes nothing
(`applyEvent_halted`). -/
theorem haltedMachineIsFrozen : Obligations.HaltedMachineIsFrozen := by
  unfold Obligations.HaltedMachineIsFrozen
  intro s hh hreset
  rw [step_eq]
  generalize s.nextMove = e at hreset ⊢
  cases e with
  | busRead a =>
    refine ⟨_, rfl, .refl [] (s.popped.busReadMove a), ?_⟩
    rw [State.busReadMove_busReads, State.popped, s.readBus_withSchedule]
  | reset u => exact absurd rfl (hreset u)
  | _ => exact ⟨s.popped, applyEvent_halted hh nofun nofun, .refl [] s.popped, rfl⟩

/-! ### The `set_period` events (R226, R138) -/

/-- The one word of FTSTEP (R83). -/
theorem word_of_decode_ftstep {w : Word} (h : decode w = .ok .ftstep) : w = 0x00000020 :=
  (encodeOfDecodeIsIdentity w .ftstep h).2.symm

theorem step_of_runsFtstep {s : State} (h : RunsFtstep s) : step s = exec .ftstep s.popped := by
  obtain ⟨hh, hw, ⟨hr, hmove, hpc⟩ | ⟨hr, hmove⟩⟩ := h
  · exact stepRunsTheRomOperation s .ftstep hmove hh hw hr (by rw [hpc]; rfl)
  · rw [step_eq, hmove]
    exact commandMove_executes (s := s.popped) (w := 0x00000020) hh hr hw (by decide)

/-- The consumer emits an event only by the FTSTEP at ROM index 1. -/
theorem consumerMove_periodEvents {s t : State} (h : consumerMove s = .next t) : t.periodEvents = s.periodEvents ∨
    s.status.halted = false ∧ s.status.waiting = false ∧ s.ctrl.run = true ∧ s.seqPc = 1 := by
  obtain rfl | ⟨-, -, -, hexec⟩ | ⟨i, hh, hw, hr, hf, hexec⟩ := consumerMove_cases h
  · exact .inl rfl
  · exact .inl (exec_periodEvents (i := .pop) nofun hexec)
  · by_cases hi : i = .ftstep
    · exact .inr ⟨hh, hw, hr, fetchOperation_inj hf (hi ▸ by decide)⟩
    · exact .inl (exec_periodEvents hi hexec)

/-- A bus write emits an event only as the `CMD` write of FTSTEP's word. -/
theorem busWriteMove_periodEvents {a : BusAddr} {v : Word} {s t : State} (h : busWriteMove a v s = .next t) :
    t.periodEvents = s.periodEvents ∨ s.status.halted = false ∧ s.status.waiting = false ∧ s.ctrl.run = false ∧
      a = 0x0C ∧ v = 0x00000020 := by
  obtain rfl | ⟨hcmd, hmove⟩ | ⟨r, -, -, -, rfl⟩ := busWriteMove_cases h
  · exact .inl rfl
  · obtain ⟨-, rfl⟩ | rfl | ⟨i, hh, hr, hw, hd, hexec⟩ := commandMove_cases hmove
    · exact .inl rfl
    · exact .inl s.cmdRefused_periodEvents
    · by_cases hi : i = .ftstep
      · exact .inr ⟨hh, hw, hr, (busDecode_eq_cmd_iff a).mp hcmd, word_of_decode_ftstep (hi ▸ hd)⟩
      · exact .inl (exec_periodEvents hi hexec)
  · exact .inl (s.putReg_periodEvents v r)

theorem State.tickMove_periodEvents (s : State) (v i : Half) : (s.tickMove v i).periodEvents = s.periodEvents := by
  unfold State.tickMove; split <;> rfl

theorem State.assertWaitFail_periodEvents (s : State) : s.assertWaitFail.periodEvents = s.periodEvents := by
  unfold State.assertWaitFail; split <;> rfl

theorem step_periodEvents_of_not_runsFtstep {s t : State} (h : step s = .next t) (hn : ¬ RunsFtstep s) :
    t.periodEvents = s.periodEvents := by
  rw [step_eq] at h
  cases hmove : s.nextMove <;> rw [hmove] at h
  case consumer =>
    refine (consumerMove_periodEvents h).resolve_right fun ⟨hh, hw, hr, hpc⟩ => hn ?_
    exact ⟨hh, hw, .inl ⟨hr, hmove, hpc⟩⟩
  case busWrite a v =>
    refine (busWriteMove_periodEvents h).resolve_right fun ⟨hh, hw, hr, ha, hv⟩ => hn ?_
    exact ⟨hh, hw, .inr ⟨hr, by rw [hmove, ha, hv]⟩⟩
  case tick v i => cases h; exact s.popped.tickMove_periodEvents v i
  case busRead a => cases h; exact s.popped.busReadMove_periodEvents a
  case waitFail => cases h; exact s.popped.assertWaitFail_periodEvents
  case reset u => cases h; rfl

/-- Settles O54: FTSTEP's execution emits as BOUNDARY says (`exec_ftstep_periodEvents`); a step that is no such execution
emits nothing. -/
theorem setPeriodIsEmittedOncePerBoundary : Obligations.SetPeriodIsEmittedOncePerBoundary := by
  unfold Obligations.SetPeriodIsEmittedOncePerBoundary
  intro s t h
  refine ⟨fun hruns => ?_, step_periodEvents_of_not_runsFtstep h⟩
  rw [step_of_runsFtstep hruns] at h
  exact exec_ftstep_periodEvents (s := s.popped) hruns.1 h

end Sys2Proof.Machine
end

section
/-! Part of the laws: reset (70_reset R240 to R242). -/

namespace Sys2Proof.Machine

/-- Reset clears every register but those R241 gives another value and those R242 leaves unspecified. -/
theorem State.afterReset_readReg_eq_zero (s : State) (u : ResetInputs) {r : BusReg}
    (hr : r ∉ [.tariffMode, .wcHms, .wcDays, .ftPeriod, .seedV, .seedI, .aggCtl])
    (hentry : ∀ k, r ≠ .vbuf k ∧ r ≠ .ibuf k) : (s.afterReset u).readReg r = 0 := by
  have packed : ∀ r ∈ ([.ctrl, .status, .fault, .ftCtl, .boundary] : List BusReg), State.reset.readReg r = 0 := by
    decide
  cases r with
  | tariffMode | wcHms | wcDays | ftPeriod | seedV | seedI | aggCtl => simp at hr
  | vbuf k => exact absurd rfl (hentry k).1
  | ibuf k => exact absurd rfl (hentry k).2
  | ctrl => exact packed .ctrl (by decide)
  | status => exact packed .status (by decide)
  | fault => exact packed .fault (by decide)
  | ftCtl => exact packed .ftCtl (by decide)
  | boundary => exact packed .boundary (by decide)
  | _ => rfl

/-- The window after reset holds what the environment supplies, in address order from 0x40, and 0 beyond it. -/
theorem State.afterReset_readHalf (s : State) (u : ResetInputs) {n : Nat} (hn : n < 32) :
    (s.afterReset u).mem.readHalf (0x40 + n) = u.windows.getD n 0 := by
  have hload := readHalf_loadWindow (hs := u.windows) (w := 0x40) (m := []) rfl (0x40 + n) (by omega)
  have hempty : Memory.readHalf [] (0x40 + n) = 0 := (by decide : unwrittenByte ++ unwrittenByte = (0 : Half))
  rw [if_pos (Nat.le_add_right _ _), Nat.add_sub_cancel_left, hempty] at hload
  exact hload

/-- Settles O42: the cleared registers by `State.afterReset_readReg_eq_zero`, the window by `State.afterReset_readHalf`,
the others as `State.afterReset` writes them. -/
theorem resetGivesEveryRegisterItsResetValue : Obligations.ResetGivesEveryRegisterItsResetValue := by
  unfold Obligations.ResetGivesEveryRegisterItsResetValue
  intro s u rest hs
  refine ⟨_, step_of_schedule hs, fun r => State.afterReset_readReg_eq_zero _ u, rfl, rfl, rfl, rfl, rfl, rfl, rfl, rfl,
    fun k => ⟨?vbuf, ?ibuf⟩, rfl, rfl, rfl⟩
  case vbuf => exact State.afterReset_readHalf _ u (by omega)
  case ibuf =>
    have hword : ibufWord k = 0x40 + (16 + k.toNat) := Nat.add_assoc 0x40 16 k.toNat
    rw [State.ibuf, hword]
    exact State.afterReset_readHalf _ u (by omega)

/-- The machine right after reset is what a reset event with nothing supplied leaves of it. -/
theorem State.reset_eq_afterReset : State.reset = State.reset.afterReset ⟨[], 0, 0, 0⟩ := rfl

/-- Settles O56: `State.afterReset_inv`, of which `State.reset` is one case (`State.reset_eq_afterReset`). -/
theorem resetMeetsTheInvariant : Obligations.ResetMeetsTheInvariant := by
  unfold Obligations.ResetMeetsTheInvariant
  refine ⟨?_, State.afterReset_inv⟩
  rw [State.reset_eq_afterReset]
  exact State.afterReset_inv _ _

end Sys2Proof.Machine
end
